-- ==== Sys2Proof/Word.lean ====
section
/-!
DEFINITION. The value types of the CORE (00_scope.md R10): the byte, the 3-bit offset, the exact number type of drive
levels and pulse widths, and the three-valued direction.
-/

namespace Sys2Proof

/-- `u8`, "Byte values are unsigned 8-bit" (R10). -/
abbrev Byte := BitVec 8

/-- `u3`, the width of the framer's `offset` register (R10, R21). -/
abbrev Offset := BitVec 3

/-- `Num`: exact rationals (R12, the spec's decision D2; assumption log 2). -/
abbrev NumQ := Rat

/-- `Tri`: the set of −1, 0 and +1 (R10). -/
inductive Tri where
  | neg
  | zero
  | pos
deriving DecidableEq, Repr, Inhabited

end Sys2Proof
end

