-- ==== Sys2Proof/Syntax.lean ====
section
/-!
DEFINITION. The operations of the CORE, one constructor for each row of the opcode table, and the script lines that
bring events to it (30_encoding.md R100, R104 to R107).
-/

namespace Sys2Proof

/-- Command State, group C of 10_state.md R20 (R24 to R26). A copy of it is the snapshot of an iteration
(43_control_cycle.md R211), the operand of the `TGT` operations. -/
structure CommandState where
  extended : Byte
  chin : Byte
  rotX : Byte
  rotY : Byte
  rotZ : Byte
  leftTargetSpeed : Tri
  rightTargetSpeed : Tri
  liftDirection : Tri
deriving DecidableEq, Repr, Inhabited

/-- The operations. Operands are those the operation's own rule names; a constructor without operands works on
registers only. -/
inductive Instr where
  /-- `RX.RESYNC` (R132): the byte is 0xFF. -/
  | rxResync
  /-- `RX.SYNC` (R133). -/
  | rxSync (b : Byte)
  /-- `RX.PAY1` (R134), the `extended` position. -/
  | rxPay1 (b : Byte)
  /-- `RX.PAY2` (R135), the `chin` position. -/
  | rxPay2 (b : Byte)
  /-- `RX.PAY3` (R136), the `rotY` position. -/
  | rxPay3 (b : Byte)
  /-- `RX.PAY4` (R137), the `rotX` position. -/
  | rxPay4 (b : Byte)
  /-- `RX.PAY5` (R138), the `rotZ` position. -/
  | rxPay5 (b : Byte)
  /-- `RX.CHECK` (R139). -/
  | rxCheck (b : Byte)
  /-- `RX.NONE` (R131). -/
  | rxNone
  /-- `PKT` (R90, R105, R107): one packet, with its checksum byte, in wire order. -/
  | pkt (e c y x z k : Byte)
  /-- `EXT` (R93, R107): the flags byte by its fields, bit 7 first. -/
  | ext (bit7 reverse : BitVec 1) (move lift : BitVec 2) (lock bit0 : BitVec 1)
  /-- `DEC.LEFT` (R162), row `-1------`. -/
  | decLeftReverse (e : Byte)
  /-- `DEC.LEFT` (R162), row `-0-1----`. -/
  | decLeftMove (e : Byte)
  /-- `DEC.LEFT` (R162), row `-0-0----`. -/
  | decLeftStop (e : Byte)
  /-- `DEC.RIGHT` (R163), row `-1------`. -/
  | decRightReverse (e : Byte)
  /-- `DEC.RIGHT` (R163), row `-01-----`. -/
  | decRightMove (e : Byte)
  /-- `DEC.RIGHT` (R163), row `-00-----`. -/
  | decRightStop (e : Byte)
  /-- `DEC.LIFT` (R164), row `----00--`. -/
  | decLift0 (e : Byte)
  /-- `DEC.LIFT` (R164), row `----01--`. -/
  | decLift1 (e : Byte)
  /-- `DEC.LIFT` (R164), row `----10--`. -/
  | decLift2 (e : Byte)
  /-- `DEC.LIFT` (R164), row `----11--`. -/
  | decLift3 (e : Byte)
  /-- `COMMIT` (R160), row `------0-`: lock clear. -/
  | commitOpen
  /-- `COMMIT` (R160), row `------1-`: lock set. -/
  | commitLocked
  /-- `SMOOTH` (R180). -/
  | smooth (current target gain : NumQ)
  /-- `TGT.LEFT` (R185). -/
  | tgtLeft (snap : CommandState)
  /-- `TGT.RIGHT` (R186). -/
  | tgtRight (snap : CommandState)
  /-- `TGT.LIFT` (R187). -/
  | tgtLift (snap : CommandState)
  /-- `TGT.ROT` (R188). -/
  | tgtRot (snap : CommandState)
  /-- `TGT.CHIN` (R189). -/
  | tgtChin (snap : CommandState)
  /-- `UPD.LEFT` (R213). -/
  | updLeft (target : NumQ)
  /-- `UPD.RIGHT` (R214). -/
  | updRight (target : NumQ)
  /-- `UPD.LIFT` (R215). -/
  | updLift (target : NumQ)
  /-- `UPD.ROT` (R216). -/
  | updRot (target : NumQ)
  /-- `UPD.CHIN` (R217). -/
  | updChin (target : NumQ)
  /-- `ITER` (R210). -/
  | iter
  /-- `RST` (R260). -/
  | rst
deriving DecidableEq, Repr

/-- One line of a script (R104, R105, R107): an event, or a packet's seven `BYTE` events written as one line. -/
inductive Line where
  /-- `RST`. -/
  | rst
  /-- `BYTE b`, the event `RX(b)`. -/
  | byte (b : Byte)
  /-- `NONE`, the event `RX(none)`. -/
  | noByte
  /-- `TICK`, the event `ITER`. -/
  | tick
  /-- `PKTK e, c, y, x, z, k`. -/
  | packet (e c y x z k : Byte)
deriving DecidableEq, Repr

end Sys2Proof
end

