-- ==== Sys2Proof/WellFormed.lean ====
section
/-!
DEFINITION. Which operations are well formed: the operand ranges that the opcode table and the operations' rules state.
-/

namespace Sys2Proof

/-- A byte that the format can carry after the sync position (30_encoding.md R102). -/
def carried (b : Byte) : Bool := b != 0xFF

/-- `e` matches a row of the opcode table, given by its mask and its match value. -/
def rowMatches (mask value e : Byte) : Bool := (e &&& mask) == value

/-- The targets of the wheels and the lift (42_smoothing.md R190). -/
def levelTarget (t : NumQ) : Bool := t == -1 || t == 0 || t == 1

/-- The domain of the gain, the half-open interval (0, 1] (42_smoothing.md R181). -/
def gainInDomain (g : NumQ) : Bool := decide (0 < g) && decide (g ≤ 1)

/-- The flags byte with every bit set, 0xFF, which the format cannot carry (30_encoding.md R93, R102). -/
def allFlags (bit7 reverse : BitVec 1) (move lift : BitVec 2) (lock bit0 : BitVec 1) : Bool :=
  bit7 == 1 && reverse == 1 && move == 3 && lift == 3 && lock == 1 && bit0 == 1

/-- Every operand is one that the operation's row or rule admits. -/
def Instr.wellFormed : Instr → Bool
  | .rxResync => true
  | .rxSync b => carried b
  | .rxPay1 b => carried b
  | .rxPay2 b => carried b
  | .rxPay3 b => carried b
  | .rxPay4 b => carried b
  | .rxPay5 b => carried b
  | .rxCheck b => carried b
  | .rxNone => true
  | .pkt e c y x z k => carried e && carried c && carried y && carried x && carried z && carried k
  | .ext bit7 reverse move lift lock bit0 => !allFlags bit7 reverse move lift lock bit0
  | .decLeftReverse e => rowMatches 0x40 0x40 e
  | .decLeftMove e => rowMatches 0x50 0x10 e
  | .decLeftStop e => rowMatches 0x50 0x00 e
  | .decRightReverse e => rowMatches 0x40 0x40 e
  | .decRightMove e => rowMatches 0x60 0x20 e
  | .decRightStop e => rowMatches 0x60 0x00 e
  | .decLift0 e => rowMatches 0x0C 0x00 e
  | .decLift1 e => rowMatches 0x0C 0x04 e
  | .decLift2 e => rowMatches 0x0C 0x08 e
  | .decLift3 e => rowMatches 0x0C 0x0C e
  | .commitOpen => true
  | .commitLocked => true
  | .smooth _ _ g => gainInDomain g
  | .tgtLeft _ => true
  | .tgtRight _ => true
  | .tgtLift _ => true
  | .tgtRot _ => true
  | .tgtChin _ => true
  | .updLeft t => levelTarget t
  | .updRight t => levelTarget t
  | .updLift t => levelTarget t
  | .updRot _ => true
  | .updChin _ => true
  | .iter => true
  | .rst => true

end Sys2Proof
end

