-- ==== Sys2Proof/Decode.lean ====
section
/-!
DEFINITION. The operation map (30_encoding.md R100): which operation an event performs, and the encoder that writes the
selector and the bytes of an operation.

An operation is not named by its bytes alone. A received byte means what `offset` says it means, and the rows of format
EXT read one byte four times, each group for its own field. So the decoder takes the selector (`Source`) beside the
bytes (assumption log 12).
-/

namespace Sys2Proof

/-- The five actuators, which name the `TGT` and `UPD` operations (42_smoothing.md R184). -/
inductive Actuator where
  | left
  | right
  | lift
  | rot
  | chin
deriving DecidableEq, Repr

/-- Who presents the operation, which is what R100 selects by. -/
inductive Source where
  /-- A byte-arrival notification at this `offset`: one byte, or none. -/
  | rx (offset : Offset)
  /-- The seven bytes of format `PKT` (R90). -/
  | packet
  /-- The flags byte by its fields, format `EXT` (R93). -/
  | flags
  /-- The left-wheel group of R100. -/
  | leftWheel
  /-- The right-wheel group of R100. -/
  | rightWheel
  /-- The lift group of R100. -/
  | liftCode
  /-- The lock group of R100. -/
  | lockBit
  /-- `SMOOTH`, invoked with its operands; nothing is encoded. -/
  | smooth (current target gain : NumQ)
  /-- A `TGT` operation, invoked by `ITER` with the snapshot. -/
  | target (a : Actuator) (snap : CommandState)
  /-- A `UPD` operation, invoked by `ITER` with the target. -/
  | update (a : Actuator) (t : NumQ)
  /-- The event `ITER`. -/
  | tick
  /-- The event `RST`. -/
  | reset
deriving DecidableEq, Repr

/-- Why the decoder gives no operation. -/
inductive Reject where
  /-- A byte at `offset = 7`, which no row of R100 covers (R146). -/
  | offsetSeven
  /-- The number of bytes is not the format's. -/
  | wrongLength
  /-- The first byte of a packet is not 0xFF (R91). -/
  | noSync
  /-- 0xFF in position 1 to 6 of a packet, which the format cannot carry (R102). -/
  | syncInsidePacket
  /-- The flags byte 0xFF, which the format cannot carry (R93, R102). -/
  | syncAsFlags
  /-- A gain outside (0, 1] (R181). -/
  | gainOutsideDomain
  /-- A wheel or lift target that is not −1, 0 or +1 (R190). -/
  | notALevelTarget
deriving DecidableEq, Repr

/-- A decoder's answer. -/
abbrev Decoded := Except Reject Instr

/-- The sync byte, "0xFF" (R91). -/
def syncByte : Byte := 0xFF

/-- The rows of R100 for `RX(b)`, in their order: the sync test first, then the row `offset` names. -/
def decodeByte (o : Offset) (b : Byte) : Decoded :=
  match o.toNat with
  | 0 => .ok (if b == syncByte then .rxResync else .rxSync b)
  | 1 => .ok (if b == syncByte then .rxResync else .rxPay1 b)
  | 2 => .ok (if b == syncByte then .rxResync else .rxPay2 b)
  | 3 => .ok (if b == syncByte then .rxResync else .rxPay3 b)
  | 4 => .ok (if b == syncByte then .rxResync else .rxPay4 b)
  | 5 => .ok (if b == syncByte then .rxResync else .rxPay5 b)
  | 6 => .ok (if b == syncByte then .rxResync else .rxCheck b)
  | _ => .error .offsetSeven

/-- Format `PKT` (R90): sync, extended, chin, rotY, rotX, rotZ, checksum. -/
def decodePacket (sync e c y x z k : Byte) : Decoded :=
  if sync != syncByte then .error .noSync
  else if [e, c, y, x, z, k].contains syncByte then .error .syncInsidePacket
  else .ok (.pkt e c y x z k)

/-- The fields of the flags byte, bit 7 first (R93). -/
def flagFields (e : Byte) : Instr :=
  .ext (e.extractLsb' 7 1) (e.extractLsb' 6 1) (e.extractLsb' 4 2) (e.extractLsb' 2 2) (e.extractLsb' 1 1)
    (e.extractLsb' 0 1)

/-- Format `EXT` (R93): any combination of the fields "except that the whole byte cannot be 0xFF". -/
def decodeFlags (e : Byte) : Decoded := if e == syncByte then .error .syncAsFlags else .ok (flagFields e)

/-- The left-wheel rows of R100. -/
def decodeLeftWheel (e : Byte) : Instr :=
  if e.getLsbD 6 then .decLeftReverse e else if e.getLsbD 4 then .decLeftMove e else .decLeftStop e

/-- The right-wheel rows of R100. -/
def decodeRightWheel (e : Byte) : Instr :=
  if e.getLsbD 6 then .decRightReverse e else if e.getLsbD 5 then .decRightMove e else .decRightStop e

/-- The lift rows of R100. -/
def decodeLiftCode (e : Byte) : Instr :=
  match e.getLsbD 3, e.getLsbD 2 with
  | false, false => .decLift0 e
  | false, true => .decLift1 e
  | true, false => .decLift2 e
  | true, true => .decLift3 e

/-- The lock rows of R100. -/
def decodeLockBit (e : Byte) : Instr :=
  if e.getLsbD 1 then .commitLocked else .commitOpen

/-- The `TGT` operation of an actuator (R185 to R189). -/
def targetOf (a : Actuator) (snap : CommandState) : Instr :=
  match a with
  | .left => .tgtLeft snap
  | .right => .tgtRight snap
  | .lift => .tgtLift snap
  | .rot => .tgtRot snap
  | .chin => .tgtChin snap

/-- The `UPD` operation of an actuator (R213 to R217); the wheels and the lift take targets of R190 only. -/
def updateOf (a : Actuator) (t : NumQ) : Decoded :=
  match a with
  | .left => if levelTarget t then .ok (.updLeft t) else .error .notALevelTarget
  | .right => if levelTarget t then .ok (.updRight t) else .error .notALevelTarget
  | .lift => if levelTarget t then .ok (.updLift t) else .error .notALevelTarget
  | .rot => .ok (.updRot t)
  | .chin => .ok (.updChin t)

/-- An operation with no bytes. -/
def noBytes (bytes : List Byte) (d : Decoded) : Decoded :=
  match bytes with
  | [] => d
  | _ :: _ => .error .wrongLength

/-- An operation of one byte. -/
def oneByte (bytes : List Byte) (f : Byte → Decoded) : Decoded :=
  match bytes with
  | [b] => f b
  | _ => .error .wrongLength

/-- A byte-arrival notification: no byte is `RX.NONE` (R131), one byte is looked up by `offset`. -/
def decodeRx (o : Offset) (bytes : List Byte) : Decoded :=
  match bytes with
  | [] => .ok .rxNone
  | _ => oneByte bytes (decodeByte o)

/-- A packet is seven bytes (R90, R103). -/
def decodeSeven (bytes : List Byte) : Decoded :=
  match bytes with
  | [f, e, c, y, x, z, k] => decodePacket f e c y x z k
  | _ => .error .wrongLength

/-- `SMOOTH` with a gain of its domain (R181). -/
def decodeSmooth (c t g : NumQ) : Decoded :=
  if gainInDomain g then .ok (.smooth c t g) else .error .gainOutsideDomain

/-- The decoder: the operation that a source presents with these bytes, or the reason there is none. -/
def decode (src : Source) (bytes : List Byte) : Decoded :=
  match src with
  | .rx o => decodeRx o bytes
  | .packet => decodeSeven bytes
  | .flags => oneByte bytes decodeFlags
  | .leftWheel => oneByte bytes fun e => .ok (decodeLeftWheel e)
  | .rightWheel => oneByte bytes fun e => .ok (decodeRightWheel e)
  | .liftCode => oneByte bytes fun e => .ok (decodeLiftCode e)
  | .lockBit => oneByte bytes fun e => .ok (decodeLockBit e)
  | .smooth c t g => noBytes bytes (decodeSmooth c t g)
  | .target a snap => noBytes bytes (.ok (targetOf a snap))
  | .update a t => noBytes bytes (updateOf a t)
  | .tick => noBytes bytes (.ok .iter)
  | .reset => noBytes bytes (.ok .rst)

/-- The flags byte made of its fields (R93): bit 7, reverse, move, lift, lock, bit 0. -/
def assembleFlags (bit7 reverse : BitVec 1) (move lift : BitVec 2) (lock bit0 : BitVec 1) : Byte :=
  bit7 ++ reverse ++ move ++ lift ++ lock ++ bit0

/-- The encoder: the selector and the bytes of an operation, from the same rows of R90, R93 and R100. An operation that
is not carried on the wire has no bytes (R104). `RX.RESYNC` is written at offset 0, one of the offsets of its row. -/
def encode : Instr → Source × List Byte
  | .rxResync => (.rx 0, [syncByte])
  | .rxSync b => (.rx 0, [b])
  | .rxPay1 b => (.rx 1, [b])
  | .rxPay2 b => (.rx 2, [b])
  | .rxPay3 b => (.rx 3, [b])
  | .rxPay4 b => (.rx 4, [b])
  | .rxPay5 b => (.rx 5, [b])
  | .rxCheck b => (.rx 6, [b])
  | .rxNone => (.rx 0, [])
  | .pkt e c y x z k => (.packet, [syncByte, e, c, y, x, z, k])
  | .ext bit7 reverse move lift lock bit0 => (.flags, [assembleFlags bit7 reverse move lift lock bit0])
  | .decLeftReverse e => (.leftWheel, [e])
  | .decLeftMove e => (.leftWheel, [e])
  | .decLeftStop e => (.leftWheel, [e])
  | .decRightReverse e => (.rightWheel, [e])
  | .decRightMove e => (.rightWheel, [e])
  | .decRightStop e => (.rightWheel, [e])
  | .decLift0 e => (.liftCode, [e])
  | .decLift1 e => (.liftCode, [e])
  | .decLift2 e => (.liftCode, [e])
  | .decLift3 e => (.liftCode, [e])
  | .commitOpen => (.lockBit, [0x00])
  | .commitLocked => (.lockBit, [0x02])
  | .smooth c t g => (.smooth c t g, [])
  | .tgtLeft snap => (.target .left snap, [])
  | .tgtRight snap => (.target .right snap, [])
  | .tgtLift snap => (.target .lift snap, [])
  | .tgtRot snap => (.target .rot snap, [])
  | .tgtChin snap => (.target .chin snap, [])
  | .updLeft t => (.update .left t, [])
  | .updRight t => (.update .right t, [])
  | .updLift t => (.update .lift t, [])
  | .updRot t => (.update .rot t, [])
  | .updChin t => (.update .chin t, [])
  | .iter => (.tick, [])
  | .rst => (.reset, [])

/-- The bytes of a table word, the first byte in bits 7 to 0. -/
def wordBytes (n w : Nat) : List Byte :=
  match n with
  | 0 => []
  | n + 1 => BitVec.ofNat 8 w :: wordBytes n (w / 256)

/-- The selector for a word that arrives from outside right after reset: `offset` is 0 (R39), and seven bytes are a
packet. The bytes of a word are all that is known of it, so rows that differ in their selector only are one word
(assumption log 12). -/
def wordSource (nbits : Nat) : Source :=
  if nbits = 56 then .packet else .rx 0

end Sys2Proof

/-- The instruction the decoder reads from a table word of `nbits` bits (R100), as the first after reset. -/
def Sys2Proof.decodeTableWord (nbits w : Nat) : Option Sys2Proof.Instr :=
  match Sys2Proof.decode (Sys2Proof.wordSource nbits) (Sys2Proof.wordBytes (nbits / 8) w) with
  | .ok i => some i
  | .error _ => none
end

