-- ==== Sys2Proof/Config.lean ====
section
/-!
DEFINITION. The open parameters of the CORE (00_scope.md R8): values the source names without giving them. They are
fixed for a machine and no operation writes them (10_state.md R34).
-/

namespace Sys2Proof

/-- One value for each open parameter of R8, with no relation assumed between any two of them. -/
structure Config where
  /-- `ROT_MIN`, microseconds (D3). -/
  rotMin : NumQ
  /-- `ROT_MAX`, microseconds (D3). -/
  rotMax : NumQ
  /-- `CHIN_MIN`, microseconds (D3). -/
  chinMin : NumQ
  /-- `CHIN_MAX`, microseconds (D3). -/
  chinMax : NumQ
  /-- `ROT_NEUTRAL`, microseconds (D4). -/
  rotNeutral : NumQ
  /-- `CHIN_NEUTRAL`, microseconds (D4). -/
  chinNeutral : NumQ
  /-- `CHIN_INIT` (D5). -/
  chinInit : Byte
  /-- `ROTX_INIT` (D5). -/
  rotXInit : Byte
  /-- `ROTY_INIT` (D5). -/
  rotYInit : Byte
  /-- `ROTZ_INIT` (D5). -/
  rotZInit : Byte
  /-- `PWM_PERIOD`, the argument of `setPeriod` (D14). -/
  pwmPeriod : NumQ
  /-- `MOTOR_REFRESH_PERIOD`, the argument of `setRefreshPeriod` (D14). -/
  motorRefreshPeriod : NumQ
deriving DecidableEq, Repr, Inhabited

/-- The parameters of the machine that comes out of reset. It has no body: no proof can see any of its values
(assumption log 3). -/
opaque Config.given : Config

end Sys2Proof
end

