-- ==== Sys2Proof/Machine/Types.lean ====
section
/-!
DEFINITION. The register groups of the CORE (10_state.md R20), its collaborators (60_exceptions.md R245, R246) and the
calls made to them (R37).
-/

namespace Sys2Proof.Machine

/-- Group F, the framer's private state (10_state.md R21 to R23). -/
structure Framer where
  /-- The position the next byte is taken to occupy (R21). -/
  offset : Offset
  /-- The running checksum (R22). -/
  csum : Byte
  /-- `pool[1]` (R23). -/
  pExt : Byte
  /-- `pool[2]` (R23). -/
  pChin : Byte
  /-- `pool[3]` (R23): `rotY` comes before `rotX`. -/
  pRotY : Byte
  /-- `pool[4]` (R23). -/
  pRotX : Byte
  /-- `pool[5]` (R23). -/
  pRotZ : Byte
deriving DecidableEq, Repr

/-- Group A, the Actuator Output State (10_state.md R29, R30). -/
structure Outputs where
  /-- The level MotorL stores (R29). -/
  lvlL : NumQ
  /-- The level MotorR stores (R29). -/
  lvlR : NumQ
  /-- The level MotorLift stores (R29). -/
  lvlLift : NumQ
  /-- The pulse width last written to PwmRot (R30). -/
  pwRot : NumQ
  /-- The pulse width last written to PwmChin (R30). -/
  pwChin : NumQ
deriving DecidableEq, Repr

/-- The settings of the collaborators that the CORE writes at set-up (10_state.md R35, 70_reset_and_hazards.md R262). -/
structure Devices where
  refreshL : NumQ
  refreshR : NumQ
  refreshLift : NumQ
  periodRot : NumQ
  periodChin : NumQ
deriving DecidableEq, Repr

/-- The three motor drivers (60_exceptions.md R245). -/
inductive Motor where
  | left
  | right
  | lift
deriving DecidableEq, Repr

/-- The two PWM outputs (60_exceptions.md R246). -/
inductive Pwm where
  | rot
  | chin
deriving DecidableEq, Repr

/-- A call that leaves the CORE (10_state.md R37, 70_reset_and_hazards.md R262). -/
inductive Call where
  /-- `drive(level)`. -/
  | drive (m : Motor) (level : NumQ)
  /-- `setPulseWidth(duration)`. -/
  | setPulseWidth (p : Pwm) (width : NumQ)
  /-- `setRefreshPeriod(duration)`. -/
  | setRefreshPeriod (m : Motor) (duration : NumQ)
  /-- `setPeriod(duration)`. -/
  | setPeriod (p : Pwm) (duration : NumQ)
deriving DecidableEq, Repr

/-- What a function operation hands to its invoker: the model's own field (assumption log 11). -/
inductive FnResult where
  | none
  | num (v : NumQ)
  | byte (b : Byte)
deriving DecidableEq, Repr

end Sys2Proof.Machine
end

