-- ==== Sys2Proof/Machine/ResetValues.lean ====
section
/-!
DEFINITION. What reset leaves in each group (10_state.md R39) and the set-up calls (70_reset_and_hazards.md R262).
-/

namespace Sys2Proof.Machine

/-- The set-up calls (70_reset_and_hazards.md R262), in the order the rule lists them. -/
def setupCalls (p : Config) : List Call :=
  [.setRefreshPeriod .left p.motorRefreshPeriod, .setRefreshPeriod .right p.motorRefreshPeriod,
    .setRefreshPeriod .lift p.motorRefreshPeriod, .setPeriod .rot p.pwmPeriod, .setPeriod .chin p.pwmPeriod]

/-- Command State after reset (10_state.md R39). -/
def resetCommand (p : Config) : CommandState :=
  { extended := 0x00, chin := p.chinInit, rotX := p.rotXInit, rotY := p.rotYInit, rotZ := p.rotZInit,
    leftTargetSpeed := .zero, rightTargetSpeed := .zero, liftDirection := .zero }

/-- The outputs after reset (10_state.md R39). -/
def resetOutputs (p : Config) : Outputs :=
  { lvlL := 0, lvlR := 0, lvlLift := 0, pwRot := p.rotNeutral, pwChin := p.chinNeutral }

/-- The framer after reset (10_state.md R39). The spec gives `offset` alone a value; the checksum and the pools are 0 by
DESIGN CHOICE (assumption log 4). -/
def resetFramer : Framer :=
  { offset := 0, csum := 0, pExt := 0, pChin := 0, pRotY := 0, pRotX := 0, pRotZ := 0 }

/-- The settings the set-up calls leave (70_reset_and_hazards.md R262). -/
def resetDevices (p : Config) : Devices :=
  { refreshL := p.motorRefreshPeriod, refreshR := p.motorRefreshPeriod, refreshLift := p.motorRefreshPeriod,
    periodRot := p.pwmPeriod, periodChin := p.pwmPeriod }

end Sys2Proof.Machine
end

