-- ==== Sys2Proof/Machine/State.lean ====
section
/-!
DEFINITION. The state of the CORE (10_state.md R20), the state of its collaborators that it writes (R35), its inputs and
outputs (R36, R37), the reasons to stop, and the state after reset (R39).
-/

namespace Sys2Proof.Machine

/-- Why the machine stops. No run from reset stops: both reasons guard states that no run reaches. -/
inductive Fault where
  /-- A byte arrived at `offset = 7`. Raised by `rx` and, through the decoder, by `step`; R146 asks for it. Safe
  (assumption log 5). -/
  | offsetSeven
  /-- A motor driver was given a level outside [−1, 1]. Raised by `driveMotor`; U12 asks for it. Safe (assumption log
  6). -/
  | levelOutOfRange
deriving DecidableEq, Repr

/-- Why an operation is not performed. -/
inductive Refusal where
  /-- An operation without a meaning in this model; none is left. Safe. -/
  | notModelled (mnemonic : String)
  /-- `SMOOTH` was given a gain outside (0, 1]. Raised by `execSmooth`; R181 asks for it. Safe (assumption log 9). -/
  | gainOutsideDomain
  /-- What was fetched decodes to nothing. Raised by `step` for every reason but `offsetSeven`; `fetch` never delivers
  such bytes, so it is never seen. Safe. -/
  | undecodable (why : Reject)
deriving DecidableEq, Repr

/-- The state of the machine. -/
structure State where
  /-- The open parameters, which no operation writes (10_state.md R34, assumption log 3). -/
  cfg : Config
  /-- Group F. -/
  framer : Framer
  /-- Group C. -/
  cmd : CommandState
  /-- Group A. -/
  out : Outputs
  /-- The collaborators' settings. -/
  dev : Devices
  /-- The calls made so far, oldest first. -/
  calls : List Call
  /-- What the last function operation returned (assumption log 11). -/
  result : FnResult
  /-- The events to come, in the order they come (20_memory.md R70 to R72, assumption log 1). -/
  agenda : List Line
deriving DecidableEq, Repr

/-- The state right after the start-up reset of a machine with these parameters (70_reset_and_hazards.md R260 to
R262). -/
def State.afterReset (p : Config) : State :=
  { cfg := p, framer := resetFramer, cmd := resetCommand p, out := resetOutputs p, dev := resetDevices p,
    calls := setupCalls p, result := .none, agenda := [] }

/-- The state right after reset. -/
def State.reset : State := State.afterReset Config.given

end Sys2Proof.Machine
end

