-- ==== Sys2Proof/Machine/Operands.lean ====
section
/-!
DEFINITION. Operand assembly (30_encoding.md R94 to R98): the fields of the flags byte, the count fields and the signed
reading of a direction.
-/

namespace Sys2Proof.Machine

/-- `reverse(e) = e[6]` (R94). -/
def reverseBit (e : Byte) : Bool := e.getLsbD 6

/-- `e[4]`, the left contribution of `move(e)` (R95). -/
def moveLeftBit (e : Byte) : Bool := e.getLsbD 4

/-- `e[5]`, the right contribution of `move(e)` (R95). -/
def moveRightBit (e : Byte) : Bool := e.getLsbD 5

/-- `lift(e) = e[3:2]` (R96). -/
def liftField (e : Byte) : BitVec 2 := e.extractLsb' 2 2

/-- `lock(e) = e[1]` (R97). -/
def lockSet (e : Byte) : Bool := e.getLsbD 1

/-- `zext` of a count byte to `Num` (R10, R98). -/
def countNum (b : Byte) : NumQ := (b.toNat : NumQ)

/-- A direction as the same signed number (R185 to R187). -/
def triNum (t : Tri) : NumQ :=
  match t with
  | .neg => -1
  | .zero => 0
  | .pos => 1

end Sys2Proof.Machine
end

