-- ==== Sys2Proof/Machine/Flags.lean ====
section
/-!
DEFINITION. The CORE has no flag register and latches no condition (10_state.md R33). This file holds the computations
that stand where a processor has flags: the checksum arithmetic, the accept test, and the decode of the flags byte.
-/

namespace Sys2Proof.Machine

/-- `+_8`, addition with the carry out of bit 7 discarded (40_framer.md R144). -/
def add8 (a b : Byte) : Byte := a + b

/-- The accept test (40_framer.md R140), with its one tolerated pair. -/
def accepts (csum b : Byte) : Bool := csum == b || (csum == 0xFF && b == 0xFE)

/-- `DEC.LEFT(e)` (41_command_decode.md R162). -/
def decLeft (e : Byte) : Tri :=
  if reverseBit e then .neg else if moveLeftBit e then .pos else .zero

/-- `DEC.RIGHT(e)` (41_command_decode.md R163). -/
def decRight (e : Byte) : Tri :=
  if reverseBit e then .pos else if moveRightBit e then .neg else .zero

/-- `DEC.LIFT(e)` (41_command_decode.md R164): codes 1 and 2 are inverted, code 3 is stop. -/
def decLift (e : Byte) : Tri :=
  match (liftField e).toNat with
  | 1 => .pos
  | 2 => .neg
  | _ => .zero

/-- The sum of the five payload bytes (30_encoding.md R92). -/
def payloadSum (e c y x z : Byte) : Byte := add8 (add8 (add8 (add8 e c) y) x) z

/-- `encode_ck`, the checksum byte a sender sends (30_encoding.md R106). -/
def encodeChecksum (e c y x z : Byte) : Byte :=
  if payloadSum e c y x z == 0xFF then 0xFE else payloadSum e c y x z

end Sys2Proof.Machine
end

