-- ==== Sys2Proof/Machine/Ops.lean ====
section
/-!
DEFINITION. The shared operations: the named updates of State, the framer's transition rule, the commit, the smoothing
rule, the targets, the collaborators' calls and reset. A meaning is one or two lines over these.

Taking an exception: the CORE takes none (60_exceptions.md R230). Its one notification, the arrival of a byte, saves no
state on entry and restores none on return (R240, R241), so the whole of taking it is `rx`.
-/

namespace Sys2Proof.Machine

/-- What a step or a meaning answers. -/
abbrev Answer := Host.Outcome State Fault Refusal

/-- One operation after another; a stop of the first is the stop of both. -/
def andThen (a : Answer) (f : State → Answer) : Answer :=
  match a with
  | .next s => f s
  | .fault r => .fault r
  | .refused r => .refused r

/-! ### Named updates -/

/-- Group F replaced. -/
def State.withFramer (s : State) (f : Framer) : State := { s with framer := f }

/-- Group C replaced, as one update (20_memory.md R66). -/
def State.withCmd (s : State) (c : CommandState) : State := { s with cmd := c }

/-- Group A replaced. -/
def State.withOut (s : State) (o : Outputs) : State := { s with out := o }

/-- The collaborators' settings replaced. -/
def State.withDev (s : State) (d : Devices) : State := { s with dev := d }

/-- The result of a function operation. -/
def State.withResult (s : State) (r : FnResult) : State := { s with result := r }

/-- The events to come. -/
def State.withAgenda (s : State) (ls : List Line) : State := { s with agenda := ls }

/-- A call leaves the CORE (10_state.md R37). -/
def State.emit (s : State) (c : Call) : State := { s with calls := s.calls ++ [c] }

/-! ### The framer (40_framer.md) -/

/-- What a byte at position 0 does: the checksum is cleared and position 1 comes next (R130, R132, R133). -/
def openFrame (s : State) : State := s.withFramer { s.framer with csum := 0, offset := 1 }

/-- `pool[i] <- b` for `i` in 1 to 5 (10_state.md R23, 20_memory.md R61). Positions 0 and 6 map to no register. -/
def setPool (f : Framer) (i : Nat) (b : Byte) : Framer :=
  match i with
  | 1 => { f with pExt := b }
  | 2 => { f with pChin := b }
  | 3 => { f with pRotY := b }
  | 4 => { f with pRotX := b }
  | 5 => { f with pRotZ := b }
  | _ => f

/-- What a byte at payload position `i` does (R130, R134 to R138): stored, added to the checksum, and the next position
comes. -/
def takePayload (i : Nat) (b : Byte) (s : State) : State :=
  s.withFramer { setPool s.framer i b with csum := add8 s.framer.csum b, offset := BitVec.ofNat 3 (i + 1) }

/-! ### The commit (41_command_decode.md R160) -/

/-- The part of a commit that every accepted packet makes: `extended` and the three derived registers. -/
def commitFlags (e : Byte) (c : CommandState) : CommandState :=
  { c with extended := e, leftTargetSpeed := decLeft e, rightTargetSpeed := decRight e, liftDirection := decLift e }

/-- The part of a commit that the lock holds back (R161): `pool[3]` goes to `rotY` and `pool[4]` to `rotX`. -/
def commitCounts (f : Framer) (c : CommandState) : CommandState :=
  { c with chin := f.pChin, rotY := f.pRotY, rotX := f.pRotX, rotZ := f.pRotZ }

/-- `COMMIT` with the lock bit clear, one update of the whole group. -/
def commitUnlocked (s : State) : State := s.withCmd (commitCounts s.framer (commitFlags s.framer.pExt s.cmd))

/-- `COMMIT` with the lock bit set, one update. -/
def commitLockedFlags (s : State) : State := s.withCmd (commitFlags s.framer.pExt s.cmd)

/-- `COMMIT`: the lock is tested on the newly received flags byte (30_encoding.md R97). -/
def commit (s : State) : State := if lockSet s.framer.pExt then commitLockedFlags s else commitUnlocked s

/-- What a byte at position 6 does (R139 to R142): the commit if the test passes, and position 0 comes next either
way. -/
def checkByte (b : Byte) (s : State) : State :=
  let t := if accepts s.framer.csum b then commit s else s
  t.withFramer { t.framer with offset := 0 }

/-- The transition rule, "invoked once per received byte", whole (R130): the sync test first, then the position. At
`offset = 7` there is no rule and the machine faults (R146, assumption log 5). -/
def rx (b : Byte) (s : State) : Answer :=
  match s.framer.offset.toNat with
  | 0 => .next (openFrame s)
  | 1 => .next (if b == syncByte then openFrame s else takePayload 1 b s)
  | 2 => .next (if b == syncByte then openFrame s else takePayload 2 b s)
  | 3 => .next (if b == syncByte then openFrame s else takePayload 3 b s)
  | 4 => .next (if b == syncByte then openFrame s else takePayload 4 b s)
  | 5 => .next (if b == syncByte then openFrame s else takePayload 5 b s)
  | 6 => .next (if b == syncByte then openFrame s else checkByte b s)
  | _ => .fault .offsetSeven

/-- Bytes arriving one after another, with no other event between them. -/
def rxAll (bs : List Byte) (s : State) : Answer :=
  match bs with
  | [] => .next s
  | b :: rest => andThen (rx b s) (rxAll rest)

/-! ### The collaborators (60_exceptions.md R245, R246) -/

/-- `read()`: the stored level, without side effect (R245). -/
def readMotor (m : Motor) (s : State) : NumQ :=
  match m with
  | .left => s.out.lvlL
  | .right => s.out.lvlR
  | .lift => s.out.lvlLift

/-- The level stored by a driver. -/
def storeLevel (m : Motor) (v : NumQ) (o : Outputs) : Outputs :=
  match m with
  | .left => { o with lvlL := v }
  | .right => { o with lvlR := v }
  | .lift => { o with lvlLift := v }

/-- "a signed drive level in [−1,1]" (10_state.md R29). -/
def levelInRange (v : NumQ) : Bool := decide (-1 ≤ v) && decide (v ≤ 1)

/-- `drive(v)`: stores `v` unchanged (R245, D13). A level outside [−1, 1] is a fault (U12, assumption log 6). -/
def driveMotor (m : Motor) (v : NumQ) (s : State) : Answer :=
  if levelInRange v then .next ((s.withOut (storeLevel m v s.out)).emit (.drive m v)) else .fault .levelOutOfRange

/-- The width register of a PWM output (10_state.md R30). -/
def storeWidth (p : Pwm) (v : NumQ) (o : Outputs) : Outputs :=
  match p with
  | .rot => { o with pwRot := v }
  | .chin => { o with pwChin := v }

/-- The controller's register is written and `setPulseWidth(v)` is called with the exact value (43_control_cycle.md
R216, R217, D20). -/
def writeWidth (p : Pwm) (v : NumQ) (s : State) : State :=
  (s.withOut (storeWidth p v s.out)).emit (.setPulseWidth p v)

/-- `setRefreshPeriod(d)` (R245). -/
def setRefreshPeriod (m : Motor) (d : NumQ) (s : State) : State :=
  let t := match m with
    | .left => s.withDev { s.dev with refreshL := d }
    | .right => s.withDev { s.dev with refreshR := d }
    | .lift => s.withDev { s.dev with refreshLift := d }
  t.emit (.setRefreshPeriod m d)

/-- `setPeriod(d)` (R246). -/
def setPeriod (p : Pwm) (d : NumQ) (s : State) : State :=
  let t := match p with
    | .rot => s.withDev { s.dev with periodRot := d }
    | .chin => s.withDev { s.dev with periodChin := d }
  t.emit (.setPeriod p d)

/-! ### The smoothing controller (42_smoothing.md) -/

/-- `G_WHEEL`, 3/10 (00_scope.md R7). -/
def gWheel : NumQ := 3 / 10

/-- `G_LIFT`, 1/2 (00_scope.md R7). -/
def gLift : NumQ := 1 / 2

/-- `G_ROT`, 1/5 (00_scope.md R7). -/
def gRot : NumQ := 1 / 5

/-- `G_CHIN`, 1/5 (00_scope.md R7). -/
def gChin : NumQ := 1 / 5

/-- `SMOOTH(current, target, gain)` (R180), with no clamp (R182). -/
def smoothNext (current target gain : NumQ) : NumQ := current + (target - current) * gain

/-- `TGT.LEFT` (R185). -/
def leftTarget (snap : CommandState) : NumQ := triNum snap.leftTargetSpeed

/-- `TGT.RIGHT` (R186). -/
def rightTarget (snap : CommandState) : NumQ := triNum snap.rightTargetSpeed

/-- `TGT.LIFT` (R187). -/
def liftTarget (snap : CommandState) : NumQ := triNum snap.liftDirection

/-- `TGT.ROT` (R188), `K_ROT` = 4, with the source's inverted clamp. -/
def rotTarget (p : Config) (snap : CommandState) : NumQ :=
  let v := p.rotMin + countNum snap.rotX * 4
  if p.rotMin < v then p.rotMax else v

/-- `TGT.CHIN` (R189), `K_CHIN` = 3, with the ordinary upper clamp. -/
def chinTarget (p : Config) (snap : CommandState) : NumQ :=
  let v := p.chinMin + countNum snap.chin * 3
  if p.chinMax < v then p.chinMax else v

/-- The snapshot of an iteration: the whole of Command State, copied at once (43_control_cycle.md R211). -/
def snapshot (s : State) : CommandState := s.cmd

/-- One smoothing step of a motor: read, smooth, drive (R213 to R215). -/
def updateMotor (m : Motor) (gain target : NumQ) (s : State) : Answer :=
  driveMotor m (smoothNext (readMotor m s) target gain) s

/-! ### Reset (70_reset_and_hazards.md) -/

/-- Every register of R20 at its reset value (R260, 10_state.md R39). -/
def resetRegisters (s : State) : State :=
  ((s.withFramer resetFramer).withCmd (resetCommand s.cfg)).withOut (resetOutputs s.cfg)

/-- The set-up calls, once each (R262). -/
def setUp (s : State) : State :=
  setPeriod .chin s.cfg.pwmPeriod <| setPeriod .rot s.cfg.pwmPeriod <|
    setRefreshPeriod .lift s.cfg.motorRefreshPeriod <| setRefreshPeriod .right s.cfg.motorRefreshPeriod <|
      setRefreshPeriod .left s.cfg.motorRefreshPeriod s

end Sys2Proof.Machine
end

