-- ==== Sys2Proof/Machine/Command.lean ====
section
/-!
DEFINITION. The meanings of the `DEC` and `COMMIT` rows (41_command_decode.md). A `DEC` row leaves its result in the
derived register the table names for it (assumption log 15).
-/

namespace Sys2Proof.Machine

/-- `DEC.LEFT` into `leftTargetSpeed` (R162). -/
def setLeft (e : Byte) (s : State) : State := s.withCmd { s.cmd with leftTargetSpeed := decLeft e }

/-- `DEC.RIGHT` into `rightTargetSpeed` (R163). -/
def setRight (e : Byte) (s : State) : State := s.withCmd { s.cmd with rightTargetSpeed := decRight e }

/-- `DEC.LIFT` into `liftDirection` (R164). -/
def setLift (e : Byte) (s : State) : State := s.withCmd { s.cmd with liftDirection := decLift e }

/-- `DEC.LEFT`, row `-1------` (R162). -/
def execDecLeftReverse (e : Byte) (s : State) : Answer := .next (setLeft e s)

/-- `DEC.LEFT`, row `-0-1----` (R162). -/
def execDecLeftMove (e : Byte) (s : State) : Answer := .next (setLeft e s)

/-- `DEC.LEFT`, row `-0-0----` (R162). -/
def execDecLeftStop (e : Byte) (s : State) : Answer := .next (setLeft e s)

/-- `DEC.RIGHT`, row `-1------` (R163). -/
def execDecRightReverse (e : Byte) (s : State) : Answer := .next (setRight e s)

/-- `DEC.RIGHT`, row `-01-----` (R163). -/
def execDecRightMove (e : Byte) (s : State) : Answer := .next (setRight e s)

/-- `DEC.RIGHT`, row `-00-----` (R163). -/
def execDecRightStop (e : Byte) (s : State) : Answer := .next (setRight e s)

/-- `DEC.LIFT`, row `----00--` (R164). -/
def execDecLift0 (e : Byte) (s : State) : Answer := .next (setLift e s)

/-- `DEC.LIFT`, row `----01--` (R164). -/
def execDecLift1 (e : Byte) (s : State) : Answer := .next (setLift e s)

/-- `DEC.LIFT`, row `----10--` (R164). -/
def execDecLift2 (e : Byte) (s : State) : Answer := .next (setLift e s)

/-- `DEC.LIFT`, row `----11--` (R164). -/
def execDecLift3 (e : Byte) (s : State) : Answer := .next (setLift e s)

/-- `COMMIT`, row `------0-` (R160). -/
def execCommitOpen (s : State) : Answer := .next (commitUnlocked s)

/-- `COMMIT`, row `------1-` (R160, R161). -/
def execCommitLocked (s : State) : Answer := .next (commitLockedFlags s)

end Sys2Proof.Machine
end

