-- ==== Sys2Proof/Machine/Cycle.lean ====
section
/-!
DEFINITION. The meanings of the `UPD` operations and of `ITER` (43_control_cycle.md).
-/

namespace Sys2Proof.Machine

/-- `UPD.LEFT` (R213). -/
def execUpdLeft (target : NumQ) (s : State) : Answer := updateMotor .left gWheel target s

/-- `UPD.RIGHT` (R214). -/
def execUpdRight (target : NumQ) (s : State) : Answer := updateMotor .right gWheel target s

/-- `UPD.LIFT` (R215). -/
def execUpdLift (target : NumQ) (s : State) : Answer := updateMotor .lift gLift target s

/-- `UPD.ROT` (R216). -/
def execUpdRot (target : NumQ) (s : State) : Answer :=
  .next (writeWidth .rot (smoothNext s.out.pwRot target gRot) s)

/-- `UPD.CHIN` (R217). -/
def execUpdChin (target : NumQ) (s : State) : Answer :=
  .next (writeWidth .chin (smoothNext s.out.pwChin target gChin) s)

/-- `ITER` (R210): one snapshot, the five targets from it, then the five updates in the source's order. -/
def execIter (s : State) : Answer :=
  let snap := snapshot s
  andThen (execUpdLeft (leftTarget snap) s) fun s1 =>
  andThen (execUpdRight (rightTarget snap) s1) fun s2 =>
  andThen (execUpdLift (liftTarget snap) s2) fun s3 =>
  andThen (execUpdRot (rotTarget s.cfg snap) s3) fun s4 =>
  execUpdChin (chinTarget s.cfg snap) s4

end Sys2Proof.Machine
end

