-- ==== Sys2Proof/Machine/Framer.lean ====
section
/-!
DEFINITION. The meanings of the `RX` operations (40_framer.md). Each is its own rule's pseudocode; which of them an
event performs is the decoder's to say (30_encoding.md R100, assumption log 13).
-/

namespace Sys2Proof.Machine

/-- `RX.RESYNC` (R132). -/
def execRxResync (s : State) : Answer := .next (openFrame s)

/-- `RX.SYNC` (R133): the byte is neither tested nor stored nor summed. -/
def execRxSync (_b : Byte) (s : State) : Answer := .next (openFrame s)

/-- `RX.PAY1` (R134). -/
def execRxPay1 (b : Byte) (s : State) : Answer := .next (takePayload 1 b s)

/-- `RX.PAY2` (R135). -/
def execRxPay2 (b : Byte) (s : State) : Answer := .next (takePayload 2 b s)

/-- `RX.PAY3` (R136). -/
def execRxPay3 (b : Byte) (s : State) : Answer := .next (takePayload 3 b s)

/-- `RX.PAY4` (R137). -/
def execRxPay4 (b : Byte) (s : State) : Answer := .next (takePayload 4 b s)

/-- `RX.PAY5` (R138). -/
def execRxPay5 (b : Byte) (s : State) : Answer := .next (takePayload 5 b s)

/-- `RX.CHECK` (R139 to R142). -/
def execRxCheck (b : Byte) (s : State) : Answer := .next (checkByte b s)

/-- `RX.NONE` (R131): nothing changes. -/
def execRxNone (s : State) : Answer := .next s

end Sys2Proof.Machine
end

