-- ==== Sys2Proof/Machine/Fetch.lean ====
section
/-!
DEFINITION. How the next event reaches the machine: one script line at a time (30_encoding.md R104), and the foreground's
free run when no line is left (20_memory.md R76). Assumption log 1.
-/

namespace Sys2Proof.Machine

/-- The bytes of a packet line, in wire order (30_encoding.md R105, R107). -/
def packetBytes (e c y x z k : Byte) : List Byte := [syncByte, e, c, y, x, z, k]

/-- What is fetched: the selector, the bytes, and the state with the line taken from the agenda. A packet line whose
operands hold 0xFF is not of the format (R102): it is its seven `BYTE` lines. -/
def fetch (s : State) : Source × List Byte × State :=
  match s.agenda with
  | [] => (.tick, [], s)
  | .rst :: rest => (.reset, [], s.withAgenda rest)
  | .byte b :: rest => (.rx s.framer.offset, [b], s.withAgenda rest)
  | .noByte :: rest => (.rx s.framer.offset, [], s.withAgenda rest)
  | .tick :: rest => (.tick, [], s.withAgenda rest)
  | .packet e c y x z k :: rest =>
    if [e, c, y, x, z, k].contains syncByte then
      (.rx s.framer.offset, [syncByte], s.withAgenda ([e, c, y, x, z, k].map Line.byte ++ rest))
    else (.packet, packetBytes e c y x z k, s.withAgenda rest)

/-- The script lines that the bytes of a table word stand for: none is a `NONE` line, a group of the packet format is a
`PKT` line, and every other group is its `BYTE` lines. -/
def wordLines (nbits w : Nat) : List Line :=
  match wordBytes (nbits / 8) w with
  | [] => [.noByte]
  | [f, e, c, y, x, z, k] =>
    if f == syncByte then [.packet e c y x z k] else [f, e, c, y, x, z, k].map Line.byte
  | bs => bs.map Line.byte

/-- The word's lines put before every other event. -/
def placeWord (s : State) (nbits w : Nat) : State := s.withAgenda (wordLines nbits w ++ s.agenda)

end Sys2Proof.Machine
end

