-- ==== Sys2Proof/Machine/Packet.lean ====
section
/-!
DEFINITION. The meanings of the two format rows, `PKT` and `EXT` (30_encoding.md R90, R93, R105, R107).
-/

namespace Sys2Proof.Machine

/-- `PKT` and `PKTK` (R105, R107): the seven `RX` events of the packet, one after another (assumption log 14). -/
def execPkt (e c y x z k : Byte) (s : State) : Answer := rxAll (packetBytes e c y x z k) s

/-- `EXT` (R93, R107): the flags byte of the fields, handed to the invoker (assumption log 11). -/
def execExt (bit7 reverse : BitVec 1) (move lift : BitVec 2) (lock bit0 : BitVec 1) (s : State) : Answer :=
  .next (s.withResult (.byte (assembleFlags bit7 reverse move lift lock bit0)))

end Sys2Proof.Machine
end

