-- ==== Sys2Proof/Machine/Reset.lean ====
section
/-!
DEFINITION. The meaning of `RST` (70_reset_and_hazards.md R260 to R262).
-/

namespace Sys2Proof.Machine

/-- `RST` (R260): all registers at their reset values, then the set-up calls. The parameters, the events to come and the
calls already made are not registers and stay (assumption log 7). -/
def execRst (s : State) : Answer := .next (setUp (resetRegisters s))

end Sys2Proof.Machine
end

