-- ==== Sys2Proof/Machine/Smoothing.lean ====
section
/-!
DEFINITION. The meanings of `SMOOTH` and the `TGT` operations (42_smoothing.md). They are functions: they write no
register of the CORE and hand their value to the invoker (assumption log 11).
-/

namespace Sys2Proof.Machine

/-- `SMOOTH` (R180); a gain outside (0, 1] is refused (R181, assumption log 9). -/
def execSmooth (current target gain : NumQ) (s : State) : Answer :=
  if gainInDomain gain then .next (s.withResult (.num (smoothNext current target gain)))
  else .refused .gainOutsideDomain

/-- `TGT.LEFT` (R185). -/
def execTgtLeft (snap : CommandState) (s : State) : Answer := .next (s.withResult (.num (leftTarget snap)))

/-- `TGT.RIGHT` (R186). -/
def execTgtRight (snap : CommandState) (s : State) : Answer := .next (s.withResult (.num (rightTarget snap)))

/-- `TGT.LIFT` (R187). -/
def execTgtLift (snap : CommandState) (s : State) : Answer := .next (s.withResult (.num (liftTarget snap)))

/-- `TGT.ROT` (R188). -/
def execTgtRot (snap : CommandState) (s : State) : Answer := .next (s.withResult (.num (rotTarget s.cfg snap)))

/-- `TGT.CHIN` (R189). -/
def execTgtChin (snap : CommandState) (s : State) : Answer := .next (s.withResult (.num (chinTarget s.cfg snap)))

end Sys2Proof.Machine
end

