-- ==== Sys2Proof/Machine/Dispatch.lean ====
section
/-! DEFINITION. The dispatch: one arm for each operation, each a call of its meaning. -/

namespace Sys2Proof.Machine

def exec (i : Instr) (s : State) : Host.Outcome State Fault Refusal :=
  match i with
  | .rxResync => Sys2Proof.Machine.execRxResync s
  | .rxSync b => Sys2Proof.Machine.execRxSync b s
  | .rxPay1 b => Sys2Proof.Machine.execRxPay1 b s
  | .rxPay2 b => Sys2Proof.Machine.execRxPay2 b s
  | .rxPay3 b => Sys2Proof.Machine.execRxPay3 b s
  | .rxPay4 b => Sys2Proof.Machine.execRxPay4 b s
  | .rxPay5 b => Sys2Proof.Machine.execRxPay5 b s
  | .rxCheck b => Sys2Proof.Machine.execRxCheck b s
  | .rxNone => Sys2Proof.Machine.execRxNone s
  | .pkt e c y x z k => Sys2Proof.Machine.execPkt e c y x z k s
  | .ext bit7 reverse move lift lock bit0 => Sys2Proof.Machine.execExt bit7 reverse move lift lock bit0 s
  | .decLeftReverse e => Sys2Proof.Machine.execDecLeftReverse e s
  | .decLeftMove e => Sys2Proof.Machine.execDecLeftMove e s
  | .decLeftStop e => Sys2Proof.Machine.execDecLeftStop e s
  | .decRightReverse e => Sys2Proof.Machine.execDecRightReverse e s
  | .decRightMove e => Sys2Proof.Machine.execDecRightMove e s
  | .decRightStop e => Sys2Proof.Machine.execDecRightStop e s
  | .decLift0 e => Sys2Proof.Machine.execDecLift0 e s
  | .decLift1 e => Sys2Proof.Machine.execDecLift1 e s
  | .decLift2 e => Sys2Proof.Machine.execDecLift2 e s
  | .decLift3 e => Sys2Proof.Machine.execDecLift3 e s
  | .commitOpen => Sys2Proof.Machine.execCommitOpen s
  | .commitLocked => Sys2Proof.Machine.execCommitLocked s
  | .smooth c t g => Sys2Proof.Machine.execSmooth c t g s
  | .tgtLeft snap => Sys2Proof.Machine.execTgtLeft snap s
  | .tgtRight snap => Sys2Proof.Machine.execTgtRight snap s
  | .tgtLift snap => Sys2Proof.Machine.execTgtLift snap s
  | .tgtRot snap => Sys2Proof.Machine.execTgtRot snap s
  | .tgtChin snap => Sys2Proof.Machine.execTgtChin snap s
  | .updLeft t => Sys2Proof.Machine.execUpdLeft t s
  | .updRight t => Sys2Proof.Machine.execUpdRight t s
  | .updLift t => Sys2Proof.Machine.execUpdLift t s
  | .updRot t => Sys2Proof.Machine.execUpdRot t s
  | .updChin t => Sys2Proof.Machine.execUpdChin t s
  | .iter => Sys2Proof.Machine.execIter s
  | .rst => Sys2Proof.Machine.execRst s

end Sys2Proof.Machine
end

