-- ==== Sys2Proof/Machine/Step.lean ====
section
/-!
DEFINITION. One step: fetch the next event, decode its operation, perform it (00_scope.md R13, 20_memory.md R70).
-/

namespace Sys2Proof.Machine

/-- One event. The line is taken from the agenda before the operation runs. -/
def step (s : State) : Host.Outcome State Fault Refusal :=
  match fetch s with
  | (src, bytes, t) =>
    match decode src bytes with
    | .ok i => exec i t
    | .error .offsetSeven => .fault .offsetSeven
    | .error why => .refused (.undecodable why)

/-- The state whose next step runs the operation that this table word stands for. -/
def State.withFetchWord (s : State) (nbits w : Nat) : State := placeWord s nbits w

end Sys2Proof.Machine
end

