-- ==== Sys2Proof/Safety.lean ====
section
/-!
DEFINITION. What counts as a safe run, in the terms the statements use: the invariant of the reachable states
(10_state.md R27, R41; 40_framer.md R144, R146, R147), the range of the joints, and the streams of bytes and iterations.
-/

namespace Sys2Proof.Machine

/-- A run of `n` steps from `s` ends in a state, with no stop on the way. -/
def Completes (n : Nat) (s : State) : Prop := ∃ t, Host.Core.run Sys2Proof.core n s = .next t

/-- The offset is a legal one, 0 to 6 (R21, R146). -/
def OffsetLegal (f : Framer) : Prop := f.offset.toNat ≤ 6

/-- No pool register that the framer wrote holds 0xFF (R147). -/
def PoolsCarried (f : Framer) : Prop :=
  f.pExt ≠ 0xFF ∧ f.pChin ≠ 0xFF ∧ f.pRotY ≠ 0xFF ∧ f.pRotX ≠ 0xFF ∧ f.pRotZ ≠ 0xFF

/-- The running checksum is the sum of the payload bytes taken since position 0 (R22, R144). At position 0 nothing is
said: `csum` is left as it was by `RX.CHECK` and by reset. -/
def ChecksumRuns (f : Framer) : Prop :=
  match f.offset.toNat with
  | 1 => f.csum = 0
  | 2 => f.csum = f.pExt
  | 3 => f.csum = f.pExt + f.pChin
  | 4 => f.csum = f.pExt + f.pChin + f.pRotY
  | 5 => f.csum = f.pExt + f.pChin + f.pRotY + f.pRotX
  | 6 => f.csum = f.pExt + f.pChin + f.pRotY + f.pRotX + f.pRotZ
  | _ => True

/-- The derived registers are the decode of the stored flags byte (R27 (b)). -/
def DecodeConsistent (c : CommandState) : Prop :=
  c.leftTargetSpeed = decLeft c.extended ∧ c.rightTargetSpeed = decRight c.extended ∧
    c.liftDirection = decLift c.extended

/-- The three levels lie in the closed interval [−1, 1] (R41). -/
def LevelsInRange (o : Outputs) : Prop :=
  (-1 ≤ o.lvlL ∧ o.lvlL ≤ 1) ∧ (-1 ≤ o.lvlR ∧ o.lvlR ≤ 1) ∧ (-1 ≤ o.lvlLift ∧ o.lvlLift ≤ 1)

/-- The invariant of the reachable states. -/
structure State.Inv (s : State) : Prop where
  offsetLegal : OffsetLegal s.framer
  poolsCarried : PoolsCarried s.framer
  checksumRuns : ChecksumRuns s.framer
  extendedCarried : s.cmd.extended ≠ 0xFF
  decodeConsistent : DecodeConsistent s.cmd
  levelsInRange : LevelsInRange s.out

/-- The joints lie between the least and the greatest of their neutral width and their targets (R41, R190). -/
def JointsInRange (s : State) : Prop :=
  (min s.cfg.rotNeutral (min s.cfg.rotMin s.cfg.rotMax) ≤ s.out.pwRot ∧
    s.out.pwRot ≤ max s.cfg.rotNeutral (max s.cfg.rotMin s.cfg.rotMax)) ∧
  (min s.cfg.chinNeutral (min s.cfg.chinMin s.cfg.chinMax) ≤ s.out.pwChin ∧
    s.out.pwChin ≤ max s.cfg.chinNeutral (min (s.cfg.chinMin + 765) s.cfg.chinMax))

/-- None of the six bytes after the sync is 0xFF: a well-formed packet (30_encoding.md R108). -/
def PacketWellFormed (e c y x z k : Byte) : Prop :=
  e ≠ 0xFF ∧ c ≠ 0xFF ∧ y ≠ 0xFF ∧ x ≠ 0xFF ∧ z ≠ 0xFF ∧ k ≠ 0xFF

/-- The checksum byte fits the payload (R92, R108). -/
def PacketValid (e c y x z k : Byte) : Prop :=
  k = e + c + y + x + z ∨ (e + c + y + x + z = 0xFF ∧ k = 0xFE)

/-- Command State after an accepted packet with this payload (41_command_decode.md R160). -/
def committed (e c y x z : Byte) (old : CommandState) : CommandState :=
  { extended := e
    leftTargetSpeed := decLeft e
    rightTargetSpeed := decRight e
    liftDirection := decLift e
    chin := if e.getLsbD 1 then old.chin else c
    rotY := if e.getLsbD 1 then old.rotY else y
    rotX := if e.getLsbD 1 then old.rotX else x
    rotZ := if e.getLsbD 1 then old.rotZ else z }

/-- The transition rule as the source words it (40_framer.md R130), on a legal offset: the sync test sets the position,
then the case runs on the position as just set. -/
def transitionRule (b : Byte) (s : State) : State :=
  let o : Nat := if b = 0xFF then 0 else s.framer.offset.toNat
  if o = 0 then { s with framer := { s.framer with csum := 0, offset := 1 } }
  else if o ≤ 5 then
    { s with framer :=
      { offset := BitVec.ofNat 3 (o + 1)
        csum := s.framer.csum + b
        pExt := if o = 1 then b else s.framer.pExt
        pChin := if o = 2 then b else s.framer.pChin
        pRotY := if o = 3 then b else s.framer.pRotY
        pRotX := if o = 4 then b else s.framer.pRotX
        pRotZ := if o = 5 then b else s.framer.pRotZ } }
  else
    { s with
      cmd :=
        if s.framer.csum = b ∨ (s.framer.csum = 0xFF ∧ b = 0xFE) then
          committed s.framer.pExt s.framer.pChin s.framer.pRotY s.framer.pRotX s.framer.pRotZ s.cmd
        else s.cmd
      framer := { s.framer with offset := 0 } }

/-- A line that is one event of a running CORE: a byte, a notification without a byte, or an iteration. -/
def Ordinary (l : Line) : Prop :=
  match l with
  | .byte _ => True
  | .noByte => True
  | .tick => True
  | .rst => False
  | .packet _ _ _ _ _ _ => False

/-- The bytes of a stream of lines, in order. -/
def bytesOf (ls : List Line) : List Byte :=
  match ls with
  | [] => []
  | .byte b :: rest => b :: bytesOf rest
  | _ :: rest => bytesOf rest

/-- Two states that an observer outside the framer cannot tell apart: all is equal but the checksum and the pools. -/
def SameButAssembly (s t : State) : Prop :=
  s.cfg = t.cfg ∧ s.framer.offset = t.framer.offset ∧ s.cmd = t.cmd ∧ s.out = t.out ∧ s.dev = t.dev ∧
    s.calls = t.calls ∧ s.result = t.result ∧ s.agenda = t.agenda

/-- Two answers an observer outside the framer cannot tell apart. -/
def SameAnswer (a b : Answer) : Prop :=
  match a, b with
  | .next s, .next t => SameButAssembly s t
  | .fault r, .fault q => r = q
  | .refused r, .refused q => r = q
  | _, _ => False

end Sys2Proof.Machine
end

