-- ==== Sys2Proof/Certificates/Slice0/Obligations.lean ====
section
/-!
DEFINITION. The statements for the provers. Each docstring names the rule of spec/ it says, and where a clause is the
spec's own decision or the model's choice it says which.
-/

open Sys2Proof Sys2Proof.Machine

/-! ### The framer's operations -/

/-- 40_framer.md R132: `RX.RESYNC` leaves offset 1 and checksum 0, and all else as it was. -/
def Obligations.RxResyncRestartsTheFrame : Prop :=
  ∀ s : State, exec .rxResync s = .next { s with framer := { s.framer with offset := 1, csum := 0 } }

/-- 40_framer.md R133, the spec's decision D6: a byte at offset 0 opens a frame whatever its value. -/
def Obligations.RxSyncOpensAFrame : Prop :=
  ∀ (b : Byte) (s : State), exec (.rxSync b) s = .next { s with framer := { s.framer with offset := 1, csum := 0 } }

/-- 40_framer.md R134: `RX.PAY1`, and its corner case that the checksum on exit is the byte. -/
def Obligations.RxPay1StoresExtended : Prop :=
  (∀ (b : Byte) (s : State), exec (.rxPay1 b) s =
    .next { s with framer := { s.framer with pExt := b, csum := s.framer.csum + b, offset := 2 } }) ∧
  ∀ (b : Byte) (s t : State), s.framer.offset = 1 → ChecksumRuns s.framer → exec (.rxPay1 b) s = .next t →
    t.framer.csum = b

/-- 40_framer.md R135, R136 and R137: `RX.PAY2`, `RX.PAY3` and `RX.PAY4`; position 3 is `rotY` and position 4 `rotX`. -/
def Obligations.RxPay2To4StoreTheirByte : Prop :=
  ∀ (b : Byte) (s : State),
    exec (.rxPay2 b) s =
      .next { s with framer := { s.framer with pChin := b, csum := s.framer.csum + b, offset := 3 } } ∧
    exec (.rxPay3 b) s =
      .next { s with framer := { s.framer with pRotY := b, csum := s.framer.csum + b, offset := 4 } } ∧
    exec (.rxPay4 b) s =
      .next { s with framer := { s.framer with pRotX := b, csum := s.framer.csum + b, offset := 5 } }

/-- 40_framer.md R138 and R144: `RX.PAY5`, after which the checksum is the sum of the five payload bytes. -/
def Obligations.RxPay5StoresRotZ : Prop :=
  (∀ (b : Byte) (s : State), exec (.rxPay5 b) s =
    .next { s with framer := { s.framer with pRotZ := b, csum := s.framer.csum + b, offset := 6 } }) ∧
  ∀ (b : Byte) (s t : State), s.framer.offset = 5 → ChecksumRuns s.framer → exec (.rxPay5 b) s = .next t →
    t.framer.csum = t.framer.pExt + t.framer.pChin + t.framer.pRotY + t.framer.pRotX + t.framer.pRotZ

/-- 40_framer.md R140: the accept test admits equality and the one tolerated pair, and no general off-by-one. -/
def Obligations.AcceptTestAdmitsOneMismatch : Prop :=
  (∀ csum b : Byte, accepts csum b = true ↔ csum = b ∨ (csum = 0xFF ∧ b = 0xFE)) ∧
  accepts 0xFE 0xFD = false ∧ accepts 0xFF 0x00 = false ∧ accepts 0x00 0xFE = false

/-- 40_framer.md R141 with 41_command_decode.md R160: the accept arm commits the pools, four of them unless the lock bit
of the new flags byte is set, and sets the offset to 0. -/
def Obligations.RxCheckAcceptCommits : Prop :=
  ∀ (b : Byte) (s : State), (s.framer.csum = b ∨ (s.framer.csum = 0xFF ∧ b = 0xFE)) →
    exec (.rxCheck b) s = .next { s with
      framer := { s.framer with offset := 0 }
      cmd :=
        { extended := s.framer.pExt
          leftTargetSpeed := decLeft s.framer.pExt
          rightTargetSpeed := decRight s.framer.pExt
          liftDirection := decLift s.framer.pExt
          chin := if s.framer.pExt.getLsbD 1 then s.cmd.chin else s.framer.pChin
          rotY := if s.framer.pExt.getLsbD 1 then s.cmd.rotY else s.framer.pRotY
          rotX := if s.framer.pExt.getLsbD 1 then s.cmd.rotX else s.framer.pRotX
          rotZ := if s.framer.pExt.getLsbD 1 then s.cmd.rotZ else s.framer.pRotZ } }

/-- 40_framer.md R142: the reject arm sets the offset to 0 and does nothing else. -/
def Obligations.RxCheckRejectOnlyResetsOffset : Prop :=
  ∀ (b : Byte) (s : State), ¬(s.framer.csum = b ∨ (s.framer.csum = 0xFF ∧ b = 0xFE)) →
    exec (.rxCheck b) s = .next { s with framer := { s.framer with offset := 0 } }

/-- 40_framer.md R131, the spec's decision D10: a notification without a byte changes nothing. -/
def Obligations.RxNoneChangesNothing : Prop :=
  ∀ s : State, exec .rxNone s = .next s

/-! ### Packets and the flags byte -/

/-- 30_encoding.md R105, R107 and 40_framer.md R148: a well-formed packet is tested against its own payload from any
legal framer state. That the packet is one step of the model is assumption log 14. -/
def Obligations.PktIsTestedOnItsOwnPayload : Prop :=
  ∀ (e c y x z k : Byte) (s : State), PacketWellFormed e c y x z k → s.framer.offset ≠ 7 →
    ∃ t, exec (.pkt e c y x z k) s = .next t ∧
      t = { s with
        framer := { offset := 0, csum := e + c + y + x + z, pExt := e, pChin := c, pRotY := y, pRotX := x, pRotZ := z }
        cmd := t.cmd } ∧
      (PacketValid e c y x z k → t.cmd = committed e c y x z s.cmd) ∧ (¬PacketValid e c y x z k → t.cmd = s.cmd)

/-- 30_encoding.md R105 and R106: the sender's checksum byte is never 0xFF, it makes the packet of its payload valid, and
it is the only byte other than 0xFF that does. -/
def Obligations.SenderChecksumIsValid : Prop :=
  ∀ e c y x z : Byte,
    encodeChecksum e c y x z ≠ 0xFF ∧ PacketValid e c y x z (encodeChecksum e c y x z) ∧
    ∀ k : Byte, k ≠ 0xFF → PacketValid e c y x z k → k = encodeChecksum e c y x z

/-- 30_encoding.md R93 and R107: the byte of `EXT` holds each field at its bits. That the byte is left in `result` is the
model's choice (assumption log 11). -/
def Obligations.ExtAssemblesTheFlagsByte : Prop :=
  ∀ (bit7 reverse : BitVec 1) (move lift : BitVec 2) (lock bit0 : BitVec 1) (s : State),
    ∃ e : Byte, exec (.ext bit7 reverse move lift lock bit0) s = .next { s with result := .byte e } ∧
      e.extractLsb' 7 1 = bit7 ∧ e.extractLsb' 6 1 = reverse ∧ e.extractLsb' 4 2 = move ∧ e.extractLsb' 2 2 = lift ∧
      e.extractLsb' 1 1 = lock ∧ e.extractLsb' 0 1 = bit0 ∧
      (bit7 = 0 → bit0 = 0 →
        e.toNat = reverse.toNat * 64 + move.toNat * 16 + lift.toNat * 4 + lock.toNat * 2)

/-- 41_command_decode.md R162, R163 and R164: the three decodes of a flags byte. -/
def Obligations.FlagsByteDecodes : Prop :=
  ∀ e : Byte,
    decLeft e = (if e.getLsbD 6 then .neg else if e.getLsbD 4 then .pos else .zero) ∧
    decRight e = (if e.getLsbD 6 then .pos else if e.getLsbD 5 then .neg else .zero) ∧
    decLift e = (match e.getLsbD 3, e.getLsbD 2 with
      | false, false => .zero
      | false, true => .pos
      | true, false => .neg
      | true, true => .zero)

/-- 41_command_decode.md R166: bits 7, 1 and 0 do not enter the decode, so bytes equal in bits 6 to 2 decode alike. That
bits 7 and 0 are ignored is the spec's decision D7 (30_encoding.md R99, assumption log 8). -/
def Obligations.DecodeReadsBits6To2 : Prop :=
  ∀ e f : Byte, e &&& 0x7C = f &&& 0x7C → decLeft e = decLeft f ∧ decRight e = decRight f ∧ decLift e = decLift f

/-- 41_command_decode.md R162 and the `DEC.LEFT` rows: each row gives `leftTargetSpeed` its result. That a row writes the
register is assumption log 15. -/
def Obligations.DecLeftRowsGiveTheirResult : Prop :=
  ∀ (e : Byte) (s : State),
    (e.getLsbD 6 = true →
      exec (.decLeftReverse e) s = .next { s with cmd := { s.cmd with leftTargetSpeed := .neg } }) ∧
    (e.getLsbD 6 = false → e.getLsbD 4 = true →
      exec (.decLeftMove e) s = .next { s with cmd := { s.cmd with leftTargetSpeed := .pos } }) ∧
    (e.getLsbD 6 = false → e.getLsbD 4 = false →
      exec (.decLeftStop e) s = .next { s with cmd := { s.cmd with leftTargetSpeed := .zero } })

/-- 41_command_decode.md R163 and the `DEC.RIGHT` rows, the signs opposite to the left wheel's (assumption log 15 as
above). -/
def Obligations.DecRightRowsGiveTheirResult : Prop :=
  ∀ (e : Byte) (s : State),
    (e.getLsbD 6 = true →
      exec (.decRightReverse e) s = .next { s with cmd := { s.cmd with rightTargetSpeed := .pos } }) ∧
    (e.getLsbD 6 = false → e.getLsbD 5 = true →
      exec (.decRightMove e) s = .next { s with cmd := { s.cmd with rightTargetSpeed := .neg } }) ∧
    (e.getLsbD 6 = false → e.getLsbD 5 = false →
      exec (.decRightStop e) s = .next { s with cmd := { s.cmd with rightTargetSpeed := .zero } })

/-- 41_command_decode.md R164 and the `DEC.LIFT` rows: code 1 is up, code 2 is down, 0 and 3 are stop (assumption log 15
as above). -/
def Obligations.DecLiftRowsGiveTheirResult : Prop :=
  ∀ (e : Byte) (s : State),
    (e.extractLsb' 2 2 = 0#2 →
      exec (.decLift0 e) s = .next { s with cmd := { s.cmd with liftDirection := .zero } }) ∧
    (e.extractLsb' 2 2 = 1#2 →
      exec (.decLift1 e) s = .next { s with cmd := { s.cmd with liftDirection := .pos } }) ∧
    (e.extractLsb' 2 2 = 2#2 →
      exec (.decLift2 e) s = .next { s with cmd := { s.cmd with liftDirection := .neg } }) ∧
    (e.extractLsb' 2 2 = 3#2 →
      exec (.decLift3 e) s = .next { s with cmd := { s.cmd with liftDirection := .zero } })

/-- 41_command_decode.md R160: the two arms of `COMMIT`, chosen by the lock bit of `pool[1]`. -/
def Obligations.CommitArmsWriteTheirGroup : Prop :=
  ∀ s : State,
    (s.framer.pExt.getLsbD 1 = false → exec .commitOpen s = .next { s with cmd :=
      { extended := s.framer.pExt
        leftTargetSpeed := decLeft s.framer.pExt
        rightTargetSpeed := decRight s.framer.pExt
        liftDirection := decLift s.framer.pExt
        chin := s.framer.pChin
        rotY := s.framer.pRotY
        rotX := s.framer.pRotX
        rotZ := s.framer.pRotZ } }) ∧
    (s.framer.pExt.getLsbD 1 = true → exec .commitLocked s = .next { s with cmd :=
      { s.cmd with
        extended := s.framer.pExt
        leftTargetSpeed := decLeft s.framer.pExt
        rightTargetSpeed := decRight s.framer.pExt
        liftDirection := decLift s.framer.pExt } })

/-! ### The smoothing controller -/

/-- 42_smoothing.md R180: the smoothing rule, which writes no register of the CORE. That the value is left in `result` is
the model's choice (assumption log 11). -/
def Obligations.SmoothReturnsTheNextValue : Prop :=
  ∀ (c t g : NumQ) (s : State), 0 < g → g ≤ 1 →
    exec (.smooth c t g) s = .next { s with result := .num (c + (t - c) * g) }

/-- 42_smoothing.md R181 and U13: a gain outside (0, 1] is refused. -/
def Obligations.SmoothRefusesGainsOutsideItsDomain : Prop :=
  ∀ (c t g : NumQ) (s : State), ¬(0 < g ∧ g ≤ 1) → exec (.smooth c t g) s = .refused .gainOutsideDomain

/-- 42_smoothing.md R183 (a), (c), (d): the error shrinks by the factor `1 - g`, the next value lies between the old one
and the target, and for a gain below 1 it does not reach the target. -/
def Obligations.SmoothConvergesWithoutOvershoot : Prop :=
  ∀ c t g : NumQ, 0 < g → g ≤ 1 →
    t - smoothNext c t g = (1 - g) * (t - c) ∧
    min c t ≤ smoothNext c t g ∧ smoothNext c t g ≤ max c t ∧
    (c ≠ t → |t - smoothNext c t g| < |t - c|) ∧
    (g < 1 → c ≠ t → smoothNext c t g ≠ t)

/-- 42_smoothing.md R185, R186 and R187: the wheel and lift targets are the derived fields of the snapshot as numbers.
That the value is left in `result` is the model's choice (assumption log 11). -/
def Obligations.LevelTargetsAreTheDerivedFields : Prop :=
  ∀ (snap : CommandState) (s : State),
    (∃ v : NumQ, exec (.tgtLeft snap) s = .next { s with result := .num v } ∧
      v = match snap.leftTargetSpeed with | .neg => -1 | .zero => 0 | .pos => 1) ∧
    (∃ v : NumQ, exec (.tgtRight snap) s = .next { s with result := .num v } ∧
      v = match snap.rightTargetSpeed with | .neg => -1 | .zero => 0 | .pos => 1) ∧
    (∃ v : NumQ, exec (.tgtLift snap) s = .next { s with result := .num v } ∧
      v = match snap.liftDirection with | .neg => -1 | .zero => 0 | .pos => 1)

/-- 42_smoothing.md R188 and its corner case (a): by the inverted clamp the rotation target is `ROT_MIN` for `rotX = 0`
and `ROT_MAX` for every other count (`result` as above). The inverted clamp is kept by the spec's decision D15
(assumption log 8). -/
def Obligations.RotationTargetHasTwoValues : Prop :=
  ∀ (snap : CommandState) (s : State),
    ∃ v : NumQ, exec (.tgtRot snap) s = .next { s with result := .num v } ∧
      v = if snap.rotX = 0 then s.cfg.rotMin else s.cfg.rotMax

/-- 42_smoothing.md R189: the chin target is scaled by 3 and clamped from above only (`result` as above). -/
def Obligations.ChinTargetIsClampedAbove : Prop :=
  ∀ (snap : CommandState) (s : State),
    ∃ v : NumQ, exec (.tgtChin snap) s = .next { s with result := .num v } ∧
      v = min (s.cfg.chinMin + 3 * (snap.chin.toNat : NumQ)) s.cfg.chinMax

/-! ### The control cycle -/

/-- 43_control_cycle.md R213 and R214: one smoothing step of a wheel, read from and driven to its own motor. -/
def Obligations.UpdOfAWheelDrivesOneStep : Prop :=
  ∀ (t : NumQ) (s : State), (t = -1 ∨ t = 0 ∨ t = 1) →
    (-1 ≤ s.out.lvlL → s.out.lvlL ≤ 1 →
      ∃ v : NumQ, v = s.out.lvlL + (t - s.out.lvlL) * (3 / 10) ∧ -1 ≤ v ∧ v ≤ 1 ∧
        exec (.updLeft t) s = .next
          { s with out := { s.out with lvlL := v }, calls := s.calls ++ [.drive .left v] }) ∧
    (-1 ≤ s.out.lvlR → s.out.lvlR ≤ 1 →
      ∃ v : NumQ, v = s.out.lvlR + (t - s.out.lvlR) * (3 / 10) ∧ -1 ≤ v ∧ v ≤ 1 ∧
        exec (.updRight t) s = .next
          { s with out := { s.out with lvlR := v }, calls := s.calls ++ [.drive .right v] })

/-- 43_control_cycle.md R215: one smoothing step of the lift. -/
def Obligations.UpdLiftDrivesOneStep : Prop :=
  ∀ (t : NumQ) (s : State), (t = -1 ∨ t = 0 ∨ t = 1) → -1 ≤ s.out.lvlLift → s.out.lvlLift ≤ 1 →
    ∃ v : NumQ, v = s.out.lvlLift + (t - s.out.lvlLift) * (1 / 2) ∧ -1 ≤ v ∧ v ≤ 1 ∧
      exec (.updLift t) s = .next
        { s with out := { s.out with lvlLift := v }, calls := s.calls ++ [.drive .lift v] }

/-- U12 of 93_implementation_defined.md: a motor is not driven to a level outside [−1, 1]; such a level stops the
machine. The spec shows no run reaches it (10_state.md R41). -/
def Obligations.UpdatesOutsideTheRangeFault : Prop :=
  ∀ (t : NumQ) (s : State),
    (¬(-1 ≤ s.out.lvlL + (t - s.out.lvlL) * (3 / 10) ∧ s.out.lvlL + (t - s.out.lvlL) * (3 / 10) ≤ 1) →
      exec (.updLeft t) s = .fault .levelOutOfRange) ∧
    (¬(-1 ≤ s.out.lvlR + (t - s.out.lvlR) * (3 / 10) ∧ s.out.lvlR + (t - s.out.lvlR) * (3 / 10) ≤ 1) →
      exec (.updRight t) s = .fault .levelOutOfRange) ∧
    (¬(-1 ≤ s.out.lvlLift + (t - s.out.lvlLift) * (1 / 2) ∧ s.out.lvlLift + (t - s.out.lvlLift) * (1 / 2) ≤ 1) →
      exec (.updLift t) s = .fault .levelOutOfRange)

/-- 43_control_cycle.md R216, with the spec's decision D20: one smoothing step of the rotation joint, from its own
register, the exact value written out. -/
def Obligations.UpdRotWritesOneStep : Prop :=
  ∀ (t : NumQ) (s : State), exec (.updRot t) s = .next
    { s with
      out := { s.out with pwRot := s.out.pwRot + (t - s.out.pwRot) * (1 / 5) }
      calls := s.calls ++ [.setPulseWidth .rot (s.out.pwRot + (t - s.out.pwRot) * (1 / 5))] }

/-- 43_control_cycle.md R217: one smoothing step of the chin joint. -/
def Obligations.UpdChinWritesOneStep : Prop :=
  ∀ (t : NumQ) (s : State), exec (.updChin t) s = .next
    { s with
      out := { s.out with pwChin := s.out.pwChin + (t - s.out.pwChin) * (1 / 5) }
      calls := s.calls ++ [.setPulseWidth .chin (s.out.pwChin + (t - s.out.pwChin) * (1 / 5))] }

/-- 43_control_cycle.md R210, with the targets of 42_smoothing.md R185 to R189: one iteration moves each output one step
toward the target of the snapshot, makes the five calls once each in the source's order, and writes nothing else. -/
def Obligations.IterMovesEveryOutputOnce : Prop :=
  ∀ s : State, LevelsInRange s.out →
    ∃ o : Outputs,
      o.lvlL = s.out.lvlL + (triNum s.cmd.leftTargetSpeed - s.out.lvlL) * (3 / 10) ∧
      o.lvlR = s.out.lvlR + (triNum s.cmd.rightTargetSpeed - s.out.lvlR) * (3 / 10) ∧
      o.lvlLift = s.out.lvlLift + (triNum s.cmd.liftDirection - s.out.lvlLift) * (1 / 2) ∧
      o.pwRot = s.out.pwRot + ((if s.cmd.rotX = 0 then s.cfg.rotMin else s.cfg.rotMax) - s.out.pwRot) * (1 / 5) ∧
      o.pwChin = s.out.pwChin +
        (min (s.cfg.chinMin + 3 * (s.cmd.chin.toNat : NumQ)) s.cfg.chinMax - s.out.pwChin) * (1 / 5) ∧
      exec .iter s = .next { s with
        out := o
        calls := s.calls ++ [.drive .left o.lvlL, .drive .right o.lvlR, .drive .lift o.lvlLift,
          .setPulseWidth .rot o.pwRot, .setPulseWidth .chin o.pwChin] }

/-- 43_control_cycle.md R218: the updates of two different actuators give the same outputs in either order. -/
def Obligations.UpdatesOfTwoActuatorsCommute : Prop :=
  ∀ (a b : Actuator) (ta tb : NumQ) (i j : Instr) (s : State), a ≠ b → updateOf a ta = .ok i → updateOf b tb = .ok j →
    LevelsInRange s.out →
    ∃ t u, andThen (exec i s) (exec j) = .next t ∧ andThen (exec j s) (exec i) = .next u ∧ t.out = u.out ∧
      t.framer = s.framer ∧ t.cmd = s.cmd

/-! ### Reset -/

/-- 70_reset_and_hazards.md R260 and R262, 10_state.md R39 (the reset value of `extended` is the spec's decision D5, the
set-up calls D14): `RST` gives every register that has a reset value that value, from any state, makes the five set-up
calls, and keeps the parameters and the events to come. It says nothing of `csum` and the pools. The ORDER of
the five set-up calls is the model's choice, not the spec's (assumption log 10, DESIGN CHOICE): R262 says that each is
made once. That RST may be performed again is assumption log 7. -/
def Obligations.RstSetsTheResetValues : Prop :=
  ∀ s : State, ∃ t, exec .rst s = .next t ∧
    t.framer.offset = 0 ∧
    t.cmd = { extended := 0x00, chin := s.cfg.chinInit, rotX := s.cfg.rotXInit, rotY := s.cfg.rotYInit,
              rotZ := s.cfg.rotZInit, leftTargetSpeed := .zero, rightTargetSpeed := .zero, liftDirection := .zero } ∧
    t.out = { lvlL := 0, lvlR := 0, lvlLift := 0, pwRot := s.cfg.rotNeutral, pwChin := s.cfg.chinNeutral } ∧
    t.dev = { refreshL := s.cfg.motorRefreshPeriod, refreshR := s.cfg.motorRefreshPeriod,
              refreshLift := s.cfg.motorRefreshPeriod, periodRot := s.cfg.pwmPeriod, periodChin := s.cfg.pwmPeriod } ∧
    t.calls = s.calls ++
      [.setRefreshPeriod .left s.cfg.motorRefreshPeriod, .setRefreshPeriod .right s.cfg.motorRefreshPeriod,
       .setRefreshPeriod .lift s.cfg.motorRefreshPeriod, .setPeriod .rot s.cfg.pwmPeriod,
       .setPeriod .chin s.cfg.pwmPeriod] ∧
    t.cfg = s.cfg ∧ t.agenda = s.agenda ∧ t.result = s.result

/-- 10_state.md R39: the state after reset holds the values of the table, and no event is waiting. -/
def Obligations.ResetStateHoldsTheTable : Prop :=
  State.reset.framer.offset = 0 ∧
  State.reset.cmd =
    { extended := 0x00, chin := Config.given.chinInit, rotX := Config.given.rotXInit, rotY := Config.given.rotYInit,
      rotZ := Config.given.rotZInit, leftTargetSpeed := .zero, rightTargetSpeed := .zero, liftDirection := .zero } ∧
  State.reset.out =
    { lvlL := 0, lvlR := 0, lvlLift := 0, pwRot := Config.given.rotNeutral, pwChin := Config.given.chinNeutral } ∧
  State.reset.agenda = []

/-- 70_reset_and_hazards.md R264: at the first iteration after reset the levels stay 0, and a joint holds still exactly
if its neutral width is already its target. -/
def Obligations.JointsHoldAtResetOnlyIfNeutralIsTarget : Prop :=
  ∀ p : Config, ∃ t, exec .iter (State.afterReset p) = .next t ∧
    t.out.lvlL = 0 ∧ t.out.lvlR = 0 ∧ t.out.lvlLift = 0 ∧
    (t.out.pwRot = p.rotNeutral ↔ (if p.rotXInit = 0 then p.rotMin else p.rotMax) = p.rotNeutral) ∧
    (t.out.pwChin = p.chinNeutral ↔ min (p.chinMin + 3 * (p.chinInit.toNat : NumQ)) p.chinMax = p.chinNeutral)

/-! ### The step -/

/-- The step runs the decoded operation: what each kind of line makes the next step do, and the free run of the
foreground when no line is left (00_scope.md R13, 20_memory.md R76, 30_encoding.md R100 and R104). The agenda is the
model's own (assumption log 1). -/
def Obligations.StepRunsTheDecodedOperation : Prop :=
  ∀ (s : State) (rest : List Line),
    (s.agenda = [] → step s = exec .iter s) ∧
    (s.agenda = .tick :: rest → step s = exec .iter { s with agenda := rest }) ∧
    (s.agenda = .noByte :: rest → step s = exec .rxNone { s with agenda := rest }) ∧
    (s.agenda = .rst :: rest → step s = exec .rst { s with agenda := rest }) ∧
    (∀ (b : Byte) (i : Instr), s.agenda = .byte b :: rest → decode (.rx s.framer.offset) [b] = .ok i →
      step s = exec i { s with agenda := rest }) ∧
    (∀ e c y x z k : Byte, s.agenda = .packet e c y x z k :: rest → PacketWellFormed e c y x z k →
      step s = exec (.pkt e c y x z k) { s with agenda := rest })

/-- The word that the host places is the operation that the next step runs, as the first after reset or at any other
time that the offset is 0 (30_encoding.md R100). -/
def Obligations.PlacedWordRunsNext : Prop :=
  ∀ (s : State) (nbits w : Nat) (i : Instr), s.framer.offset = 0 → decodeTableWord nbits w = some i →
    step (s.withFetchWord nbits w) = exec i s

/-- 40_framer.md R130: on a legal offset, a step on a byte is the source's transition rule. -/
def Obligations.ByteStepIsTheTransitionRule : Prop :=
  ∀ (s : State) (b : Byte) (rest : List Line), s.framer.offset ≠ 7 → s.agenda = .byte b :: rest →
    step s = .next { transitionRule b s with agenda := rest }

/-- 40_framer.md R146: at the unreachable offset 7 a byte is a fault, never a guess. -/
def Obligations.OffsetSevenFaults : Prop :=
  ∀ (s : State) (b : Byte) (rest : List Line), s.framer.offset = 7 → s.agenda = .byte b :: rest →
    step s = .fault .offsetSeven

/-- 40_framer.md R146: for every legal offset and every byte a row applies, it is well formed, and the successor graph of
the offset is the rule's. -/
def Obligations.FramerIsTotalAndClosed : Prop :=
  ∀ (s : State) (b : Byte) (rest : List Line), s.framer.offset.toNat ≤ 6 → s.agenda = .byte b :: rest →
    ∃ (i : Instr) (t : State), decode (.rx s.framer.offset) [b] = .ok i ∧ i.wellFormed = true ∧ step s = .next t ∧
      t.framer.offset.toNat =
        if b = 0xFF ∨ s.framer.offset = 0 then 1 else if s.framer.offset = 6 then 0 else s.framer.offset.toNat + 1

/-- 40_framer.md R145: a sum of 0xFF is confirmed by the byte 0xFE only; the byte 0xFF restarts the frame instead. -/
def Obligations.SumFFIsConfirmedByFEOnly : Prop :=
  ∀ (s : State) (b : Byte) (rest : List Line), s.framer.offset = 6 → s.framer.csum = 0xFF →
    s.agenda = .byte b :: rest →
    ∃ t, step s = .next t ∧
      (b = 0xFE → t.framer.offset = 0 ∧
        t.cmd = committed s.framer.pExt s.framer.pChin s.framer.pRotY s.framer.pRotX s.framer.pRotZ s.cmd) ∧
      (b = 0xFF → t.framer.offset = 1 ∧ t.framer.csum = 0 ∧ t.cmd = s.cmd) ∧
      (b ≠ 0xFE → b ≠ 0xFF → t.framer.offset = 0 ∧ t.cmd = s.cmd)

/-! ### Encoding -/

/-- Decoding what the encoder writes gives the operation back, for every well-formed operation and every operand
(30_encoding.md R90, R93, R100). -/
def Obligations.DecodeOfEncodeIsTheOperation : Prop :=
  ∀ i : Instr, i.wellFormed = true → decode (encode i).1 (encode i).2 = .ok i

/-- The decoder gives well-formed operations only (30_encoding.md R100, R102). -/
def Obligations.DecodedOperationsAreWellFormed : Prop :=
  ∀ (src : Source) (bytes : List Byte) (i : Instr), decode src bytes = .ok i → i.wellFormed = true

/-- Where bytes come from the wire or are a flags byte read for its fields or its directions, encoding the decoded
operation writes the same bytes: no bit of them is dropped (30_encoding.md R90, R93, R100). -/
def Obligations.EncodeOfDecodeKeepsTheBytes : Prop :=
  ∀ (src : Source) (bytes : List Byte) (i : Instr), src ≠ .lockBit → decode src bytes = .ok i → (encode i).2 = bytes

/-- 30_encoding.md R100: of each group of flags-byte rows, the row that is decoded is the one whose pattern the byte
matches. -/
def Obligations.FlagRowsAreChosenByTheirPattern : Prop :=
  ∀ e : Byte,
    (decode .leftWheel [e] = .ok (.decLeftReverse e) ↔ e &&& 0x40 = 0x40) ∧
    (decode .leftWheel [e] = .ok (.decLeftMove e) ↔ e &&& 0x50 = 0x10) ∧
    (decode .leftWheel [e] = .ok (.decLeftStop e) ↔ e &&& 0x50 = 0x00) ∧
    (decode .rightWheel [e] = .ok (.decRightReverse e) ↔ e &&& 0x40 = 0x40) ∧
    (decode .rightWheel [e] = .ok (.decRightMove e) ↔ e &&& 0x60 = 0x20) ∧
    (decode .rightWheel [e] = .ok (.decRightStop e) ↔ e &&& 0x60 = 0x00) ∧
    (decode .liftCode [e] = .ok (.decLift0 e) ↔ e &&& 0x0C = 0x00) ∧
    (decode .liftCode [e] = .ok (.decLift1 e) ↔ e &&& 0x0C = 0x04) ∧
    (decode .liftCode [e] = .ok (.decLift2 e) ↔ e &&& 0x0C = 0x08) ∧
    (decode .liftCode [e] = .ok (.decLift3 e) ↔ e &&& 0x0C = 0x0C) ∧
    (decode .lockBit [e] = .ok .commitOpen ↔ e &&& 0x02 = 0x00) ∧
    (decode .lockBit [e] = .ok .commitLocked ↔ e &&& 0x02 = 0x02)

/-- Words written out from the patterns of 30_encoding.md decode to the operations they stand for. -/
def Obligations.WordsOfTheSpecDecode : Prop :=
  decode (.rx 4) [0b11111111] = .ok .rxResync ∧
  decode (.rx 3) [0b11110000] = .ok (.rxPay3 0xF0) ∧
  decode (.rx 6) [0b00010000] = .ok (.rxCheck 0x10) ∧
  decode .packet [0xFF, 0x10, 0x20, 0x30, 0x40, 0x50, 0xF0] = .ok (.pkt 0x10 0x20 0x30 0x40 0x50 0xF0) ∧
  decode .flags [0b01011010] = .ok (.ext 0 1 0b01 0b10 1 0) ∧
  decode .leftWheel [0b00010000] = .ok (.decLeftMove 0x10) ∧
  decode .rightWheel [0b00100000] = .ok (.decRightMove 0x20) ∧
  decode .liftCode [0b00001000] = .ok (.decLift2 0x08) ∧
  decode .lockBit [0b00000010] = .ok .commitLocked

/-! ### Invariants and whole-machine rules -/

/-- 10_state.md R27, R41, 40_framer.md R144, R146, R147: the invariant of the reachable states is kept by every step,
whatever event it is. -/
def Obligations.StepKeepsTheInvariant : Prop :=
  ∀ s t : State, s.Inv → step s = .next t → t.Inv

/-- The invariant holds at reset (10_state.md R39). The pool registers enter it with the model's reset values
(assumption log 4). -/
def Obligations.ResetHasTheInvariant : Prop := State.reset.Inv

/-- 10_state.md R41: the joints stay between the least and the greatest of their neutral width and their targets,
whatever the parameters are. -/
def Obligations.StepKeepsTheJointsInRange : Prop :=
  ∀ s t : State, JointsInRange s → step s = .next t → JointsInRange t

/-- The joints are in that range at reset (10_state.md R39, R41). -/
def Obligations.ResetHasTheJointsInRange : Prop := JointsInRange State.reset

/-- 60_exceptions.md R230, 20_memory.md R72 and R76: from reset, with any parameters, under any sequence of events and
for any number of steps, the machine never stops. That the events are a list put in from outside is the model's choice
(assumption log 1), and so is that the list may hold further resets, which the spec does not define (assumption log 7,
DESIGN CHOICE). -/
def Obligations.NoRunFromResetStops : Prop :=
  ∀ (p : Config) (ls : List Line) (n : Nat), Completes n { State.afterReset p with agenda := ls }

/-- 30_encoding.md R101 and 60_exceptions.md R230: no step is refused, and a step faults on states that no run reaches
only: at offset 7, or from a level outside [−1, 1]. -/
def Obligations.StepStopsOnUnreachableStatesOnly : Prop :=
  ∀ s : State, (∀ r, step s ≠ .refused r) ∧
    ∀ r, step s = .fault r →
      (r = .offsetSeven ∧ s.framer.offset = 7) ∨ (r = .levelOutOfRange ∧ ¬LevelsInRange s.out)

/-- 10_state.md R34 and 20_memory.md R75: no operation, and so no packet, changes a parameter. -/
def Obligations.NoOperationChangesTheParameters : Prop :=
  ∀ (i : Instr) (s t : State), exec i s = .next t → t.cfg = s.cfg

/-- 10_state.md R31 and R38: only the control cycle and reset change an actuator output. -/
def Obligations.OutputsChangeInTheControlCycleOnly : Prop :=
  ∀ (i : Instr) (s t : State), exec i s = .next t → t.out ≠ s.out →
    i = .iter ∨ i = .rst ∨ (∃ v, i = .updLeft v) ∨ (∃ v, i = .updRight v) ∨ (∃ v, i = .updLift v) ∨
      (∃ v, i = .updRot v) ∨ (∃ v, i = .updChin v)

/-- 40_framer.md R149 and 10_state.md R28: a step changes Command State by an accepted checksum byte at offset 6, by a
whole packet, or by reset, and by nothing else. -/
def Obligations.CommandStateChangesAtTheCheckOnly : Prop :=
  ∀ s t : State, step s = .next t → t.cmd ≠ s.cmd →
    (∃ (b : Byte) (rest : List Line), s.agenda = .byte b :: rest ∧ s.framer.offset = 6 ∧ b ≠ 0xFF ∧
      (s.framer.csum = b ∨ (s.framer.csum = 0xFF ∧ b = 0xFE))) ∨
    (∃ (e c y x z k : Byte) (rest : List Line), s.agenda = .packet e c y x z k :: rest ∧ s.framer.offset ≠ 7 ∧
      PacketWellFormed e c y x z k ∧ PacketValid e c y x z k) ∨
    (∃ rest : List Line, s.agenda = .rst :: rest)

/-- 60_exceptions.md R243 and 40_framer.md R143: the handler's events touch no output and make no call, and the
foreground's touch neither the framer nor Command State. -/
def Obligations.ContextsKeepToTheirGroups : Prop :=
  ∀ (s t : State) (l : Line) (rest : List Line), s.agenda = l :: rest → step s = .next t →
    (((∃ b, l = .byte b) ∨ l = .noByte ∨ ∃ e c y x z k, l = .packet e c y x z k) →
      t.out = s.out ∧ t.dev = s.dev ∧ t.calls = s.calls ∧ t.result = s.result) ∧
    (l = .tick → t.framer = s.framer ∧ t.cmd = s.cmd ∧ t.dev = s.dev ∧ t.result = s.result ∧
      t.calls.length = s.calls.length + 5)

/-- 10_state.md R40 and U7: what `csum` and the pools hold at offset 0 is never observed: two machines that differ in
them alone give equal Command States, outputs and calls for ever, under the same events. So no run depends on the reset
values the model chose for them (assumption log 4). The events are the model's list (assumption log 1), which may hold
further resets (assumption log 7, DESIGN CHOICE). -/
def Obligations.AssemblyAtOffsetZeroIsUnobservable : Prop :=
  ∀ (n : Nat) (s t : State), s.framer.offset = 0 → SameButAssembly s t →
    SameAnswer (Host.Core.run Sys2Proof.core n s) (Host.Core.run Sys2Proof.core n t)

/-- 30_encoding.md R105: a packet line does what its seven `BYTE` lines do. -/
def Obligations.PacketLineIsItsSevenBytes : Prop :=
  ∀ (s : State) (e c y x z k : Byte) (rest : List Line), PacketWellFormed e c y x z k →
    s.agenda = .packet e c y x z k :: rest →
    step s = Host.Core.run Sys2Proof.core 7 { s with agenda :=
      [.byte 0xFF, .byte e, .byte c, .byte y, .byte x, .byte z, .byte k] ++ rest }

/-- 40_framer.md R148: a well-formed packet received with any number of iterations and empty notifications among its
bytes, from any framer state, is tested against exactly its own payload and committed exactly if it is valid. The events are
the model's list (assumption log 1). -/
def Obligations.PacketCommitsUnderAnyInterleaving : Prop :=
  ∀ (s : State) (ls rest : List Line) (e c y x z k : Byte), s.framer.offset ≠ 7 → LevelsInRange s.out →
    s.agenda = ls ++ rest → (∀ l ∈ ls, Ordinary l) → bytesOf ls = [0xFF, e, c, y, x, z, k] →
    PacketWellFormed e c y x z k →
    ∃ t, Host.Core.run Sys2Proof.core ls.length s = .next t ∧ t.agenda = rest ∧ t.framer.offset = 0 ∧
      (PacketValid e c y x z k → t.cmd = committed e c y x z s.cmd) ∧
      (¬PacketValid e c y x z k → t.cmd = s.cmd)

/-- 20_memory.md R73 and 40_framer.md R149: a byte that commits nothing and an iteration may come in either order, to the
same state. -/
def Obligations.ByteAndIterationCommuteUnlessCommit : Prop :=
  ∀ (s : State) (b : Byte) (rest : List Line), s.framer.offset ≠ 7 → LevelsInRange s.out →
    ¬(s.framer.offset = 6 ∧ b ≠ 0xFF ∧ (s.framer.csum = b ∨ (s.framer.csum = 0xFF ∧ b = 0xFE))) →
    Host.Core.run Sys2Proof.core 2 { s with agenda := .byte b :: .tick :: rest } =
      Host.Core.run Sys2Proof.core 2 { s with agenda := .tick :: .byte b :: rest }

/-- 43_control_cycle.md R221 and R212, 42_smoothing.md R183 (b), 60_exceptions.md R233: while no event comes, Command State
stands, and after `n` iterations the error of each output is `(1 - gain)^n` of what it was. An empty agenda stands for
the silence by the model's choice (assumption log 1, DESIGN CHOICE): the statement is about `n` steps without an event
and does not say that no byte arrives after them, a reading that log 1 calls unsafe. -/
def Obligations.SilenceHoldsTheCommand : Prop :=
  ∀ (n : Nat) (s : State), s.agenda = [] → LevelsInRange s.out →
    ∃ t, Host.Core.run Sys2Proof.core n s = .next t ∧ t.cmd = s.cmd ∧ t.framer = s.framer ∧ t.agenda = [] ∧
      triNum s.cmd.leftTargetSpeed - t.out.lvlL = (7 / 10) ^ n * (triNum s.cmd.leftTargetSpeed - s.out.lvlL) ∧
      triNum s.cmd.rightTargetSpeed - t.out.lvlR = (7 / 10) ^ n * (triNum s.cmd.rightTargetSpeed - s.out.lvlR) ∧
      triNum s.cmd.liftDirection - t.out.lvlLift = (1 / 2) ^ n * (triNum s.cmd.liftDirection - s.out.lvlLift) ∧
      (if s.cmd.rotX = 0 then s.cfg.rotMin else s.cfg.rotMax) - t.out.pwRot =
        (4 / 5) ^ n * ((if s.cmd.rotX = 0 then s.cfg.rotMin else s.cfg.rotMax) - s.out.pwRot) ∧
      min (s.cfg.chinMin + 3 * (s.cmd.chin.toNat : NumQ)) s.cfg.chinMax - t.out.pwChin =
        (4 / 5) ^ n * (min (s.cfg.chinMin + 3 * (s.cmd.chin.toNat : NumQ)) s.cfg.chinMax - s.out.pwChin)
end

