-- ==== Sys2Proof/Laws/State.lean ====
section
/-!
SUPPORT. One lemma for each field and each named update of State, true by rfl, so that no later proof unfolds an update.
-/

namespace Sys2Proof.Machine

@[simp] theorem withFramer_cfg (s : State) (f : Framer) : (s.withFramer f).cfg = s.cfg := rfl
@[simp] theorem withFramer_framer (s : State) (f : Framer) : (s.withFramer f).framer = f := rfl
@[simp] theorem withFramer_cmd (s : State) (f : Framer) : (s.withFramer f).cmd = s.cmd := rfl
@[simp] theorem withFramer_out (s : State) (f : Framer) : (s.withFramer f).out = s.out := rfl
@[simp] theorem withFramer_dev (s : State) (f : Framer) : (s.withFramer f).dev = s.dev := rfl
@[simp] theorem withFramer_calls (s : State) (f : Framer) : (s.withFramer f).calls = s.calls := rfl
@[simp] theorem withFramer_result (s : State) (f : Framer) : (s.withFramer f).result = s.result := rfl
@[simp] theorem withFramer_agenda (s : State) (f : Framer) : (s.withFramer f).agenda = s.agenda := rfl

@[simp] theorem withCmd_cfg (s : State) (c : CommandState) : (s.withCmd c).cfg = s.cfg := rfl
@[simp] theorem withCmd_framer (s : State) (c : CommandState) : (s.withCmd c).framer = s.framer := rfl
@[simp] theorem withCmd_cmd (s : State) (c : CommandState) : (s.withCmd c).cmd = c := rfl
@[simp] theorem withCmd_out (s : State) (c : CommandState) : (s.withCmd c).out = s.out := rfl
@[simp] theorem withCmd_dev (s : State) (c : CommandState) : (s.withCmd c).dev = s.dev := rfl
@[simp] theorem withCmd_calls (s : State) (c : CommandState) : (s.withCmd c).calls = s.calls := rfl
@[simp] theorem withCmd_result (s : State) (c : CommandState) : (s.withCmd c).result = s.result := rfl
@[simp] theorem withCmd_agenda (s : State) (c : CommandState) : (s.withCmd c).agenda = s.agenda := rfl

@[simp] theorem withOut_cfg (s : State) (o : Outputs) : (s.withOut o).cfg = s.cfg := rfl
@[simp] theorem withOut_framer (s : State) (o : Outputs) : (s.withOut o).framer = s.framer := rfl
@[simp] theorem withOut_cmd (s : State) (o : Outputs) : (s.withOut o).cmd = s.cmd := rfl
@[simp] theorem withOut_out (s : State) (o : Outputs) : (s.withOut o).out = o := rfl
@[simp] theorem withOut_dev (s : State) (o : Outputs) : (s.withOut o).dev = s.dev := rfl
@[simp] theorem withOut_calls (s : State) (o : Outputs) : (s.withOut o).calls = s.calls := rfl
@[simp] theorem withOut_result (s : State) (o : Outputs) : (s.withOut o).result = s.result := rfl
@[simp] theorem withOut_agenda (s : State) (o : Outputs) : (s.withOut o).agenda = s.agenda := rfl

@[simp] theorem withDev_cfg (s : State) (d : Devices) : (s.withDev d).cfg = s.cfg := rfl
@[simp] theorem withDev_framer (s : State) (d : Devices) : (s.withDev d).framer = s.framer := rfl
@[simp] theorem withDev_cmd (s : State) (d : Devices) : (s.withDev d).cmd = s.cmd := rfl
@[simp] theorem withDev_out (s : State) (d : Devices) : (s.withDev d).out = s.out := rfl
@[simp] theorem withDev_dev (s : State) (d : Devices) : (s.withDev d).dev = d := rfl
@[simp] theorem withDev_calls (s : State) (d : Devices) : (s.withDev d).calls = s.calls := rfl
@[simp] theorem withDev_result (s : State) (d : Devices) : (s.withDev d).result = s.result := rfl
@[simp] theorem withDev_agenda (s : State) (d : Devices) : (s.withDev d).agenda = s.agenda := rfl

@[simp] theorem withResult_cfg (s : State) (r : FnResult) : (s.withResult r).cfg = s.cfg := rfl
@[simp] theorem withResult_framer (s : State) (r : FnResult) : (s.withResult r).framer = s.framer := rfl
@[simp] theorem withResult_cmd (s : State) (r : FnResult) : (s.withResult r).cmd = s.cmd := rfl
@[simp] theorem withResult_out (s : State) (r : FnResult) : (s.withResult r).out = s.out := rfl
@[simp] theorem withResult_dev (s : State) (r : FnResult) : (s.withResult r).dev = s.dev := rfl
@[simp] theorem withResult_calls (s : State) (r : FnResult) : (s.withResult r).calls = s.calls := rfl
@[simp] theorem withResult_result (s : State) (r : FnResult) : (s.withResult r).result = r := rfl
@[simp] theorem withResult_agenda (s : State) (r : FnResult) : (s.withResult r).agenda = s.agenda := rfl

@[simp] theorem withAgenda_cfg (s : State) (ls : List Line) : (s.withAgenda ls).cfg = s.cfg := rfl
@[simp] theorem withAgenda_framer (s : State) (ls : List Line) : (s.withAgenda ls).framer = s.framer := rfl
@[simp] theorem withAgenda_cmd (s : State) (ls : List Line) : (s.withAgenda ls).cmd = s.cmd := rfl
@[simp] theorem withAgenda_out (s : State) (ls : List Line) : (s.withAgenda ls).out = s.out := rfl
@[simp] theorem withAgenda_dev (s : State) (ls : List Line) : (s.withAgenda ls).dev = s.dev := rfl
@[simp] theorem withAgenda_calls (s : State) (ls : List Line) : (s.withAgenda ls).calls = s.calls := rfl
@[simp] theorem withAgenda_result (s : State) (ls : List Line) : (s.withAgenda ls).result = s.result := rfl
@[simp] theorem withAgenda_agenda (s : State) (ls : List Line) : (s.withAgenda ls).agenda = ls := rfl

@[simp] theorem emit_cfg (s : State) (c : Call) : (s.emit c).cfg = s.cfg := rfl
@[simp] theorem emit_framer (s : State) (c : Call) : (s.emit c).framer = s.framer := rfl
@[simp] theorem emit_cmd (s : State) (c : Call) : (s.emit c).cmd = s.cmd := rfl
@[simp] theorem emit_out (s : State) (c : Call) : (s.emit c).out = s.out := rfl
@[simp] theorem emit_dev (s : State) (c : Call) : (s.emit c).dev = s.dev := rfl
@[simp] theorem emit_calls (s : State) (c : Call) : (s.emit c).calls = s.calls ++ [c] := rfl
@[simp] theorem emit_result (s : State) (c : Call) : (s.emit c).result = s.result := rfl
@[simp] theorem emit_agenda (s : State) (c : Call) : (s.emit c).agenda = s.agenda := rfl

/-- A state is its eight fields. -/
theorem State.ext_fields {s t : State} (h1 : s.cfg = t.cfg) (h2 : s.framer = t.framer) (h3 : s.cmd = t.cmd)
    (h4 : s.out = t.out) (h5 : s.dev = t.dev) (h6 : s.calls = t.calls) (h7 : s.result = t.result)
    (h8 : s.agenda = t.agenda) : s = t := by
  cases s; cases t; simp_all

end Sys2Proof.Machine
end

