-- ==== Sys2Proof/Laws/Ops.lean ====
section
/-!
SUPPORT. For each shared operation, what it does and all it can do, so that proofs cite it instead of unfolding it.
-/

namespace Sys2Proof.Machine

/-! ### Sequencing -/

@[simp] theorem andThen_next (s : State) (f : State → Answer) : andThen (.next s) f = f s := rfl
@[simp] theorem andThen_fault (r : Fault) (f : State → Answer) : andThen (.fault r) f = .fault r := rfl
@[simp] theorem andThen_refused (r : Refusal) (f : State → Answer) : andThen (.refused r) f = .refused r := rfl

/-- A sequence ends in a state only if both parts do. -/
theorem andThen_eq_next {a : Answer} {f : State → Answer} {t : State} (h : andThen a f = .next t) :
    ∃ s, a = .next s ∧ f s = .next t := by
  cases a with
  | next s => exact ⟨s, rfl, h⟩
  | fault r => cases h
  | refused r => cases h

/-- A sequence faults only if one of its parts does. -/
theorem andThen_eq_fault {a : Answer} {f : State → Answer} {r : Fault} (h : andThen a f = .fault r) :
    a = .fault r ∨ ∃ s, a = .next s ∧ f s = .fault r := by
  cases a with
  | next s => exact .inr ⟨s, rfl, h⟩
  | fault q => cases h; exact .inl rfl
  | refused q => cases h

/-- A sequence is refused only if one of its parts is. -/
theorem andThen_eq_refused {a : Answer} {f : State → Answer} {r : Refusal} (h : andThen a f = .refused r) :
    a = .refused r ∨ ∃ s, a = .next s ∧ f s = .refused r := by
  cases a with
  | next s => exact .inr ⟨s, rfl, h⟩
  | fault q => cases h
  | refused q => cases h; exact .inl rfl

/-! ### The framer -/

/-- The framer part of a state, replaced: the equation that ties the two spellings of an update. -/
theorem withFramer_eq (s : State) (f : Framer) : s.withFramer f = { s with framer := f } := rfl
theorem withCmd_eq (s : State) (c : CommandState) : s.withCmd c = { s with cmd := c } := rfl
theorem withOut_eq (s : State) (o : Outputs) : s.withOut o = { s with out := o } := rfl
theorem withResult_eq (s : State) (r : FnResult) : s.withResult r = { s with result := r } := rfl
theorem withAgenda_eq (s : State) (ls : List Line) : s.withAgenda ls = { s with agenda := ls } := rfl
theorem emit_eq (s : State) (c : Call) : s.emit c = { s with calls := s.calls ++ [c] } := rfl

theorem openFrame_eq (s : State) : openFrame s = { s with framer := { s.framer with csum := 0, offset := 1 } } := rfl

@[simp] theorem openFrame_framer (s : State) :
    (openFrame s).framer = { s.framer with csum := 0, offset := 1 } := rfl
@[simp] theorem openFrame_cfg (s : State) : (openFrame s).cfg = s.cfg := rfl
@[simp] theorem openFrame_cmd (s : State) : (openFrame s).cmd = s.cmd := rfl
@[simp] theorem openFrame_out (s : State) : (openFrame s).out = s.out := rfl
@[simp] theorem openFrame_dev (s : State) : (openFrame s).dev = s.dev := rfl
@[simp] theorem openFrame_calls (s : State) : (openFrame s).calls = s.calls := rfl
@[simp] theorem openFrame_result (s : State) : (openFrame s).result = s.result := rfl
@[simp] theorem openFrame_agenda (s : State) : (openFrame s).agenda = s.agenda := rfl

@[simp] theorem takePayload_framer (i : Nat) (b : Byte) (s : State) : (takePayload i b s).framer =
    { setPool s.framer i b with csum := s.framer.csum + b, offset := BitVec.ofNat 3 (i + 1) } := rfl
@[simp] theorem takePayload_cfg (i : Nat) (b : Byte) (s : State) : (takePayload i b s).cfg = s.cfg := rfl
@[simp] theorem takePayload_cmd (i : Nat) (b : Byte) (s : State) : (takePayload i b s).cmd = s.cmd := rfl
@[simp] theorem takePayload_out (i : Nat) (b : Byte) (s : State) : (takePayload i b s).out = s.out := rfl
@[simp] theorem takePayload_dev (i : Nat) (b : Byte) (s : State) : (takePayload i b s).dev = s.dev := rfl
@[simp] theorem takePayload_calls (i : Nat) (b : Byte) (s : State) : (takePayload i b s).calls = s.calls := rfl
@[simp] theorem takePayload_result (i : Nat) (b : Byte) (s : State) : (takePayload i b s).result = s.result := rfl
@[simp] theorem takePayload_agenda (i : Nat) (b : Byte) (s : State) : (takePayload i b s).agenda = s.agenda := rfl

/-- A commit changes Command State and nothing else. -/
theorem commit_eq (s : State) : commit s = { s with cmd := (commit s).cmd } := by
  unfold commit; split <;> rfl

@[simp] theorem commit_framer (s : State) : (commit s).framer = s.framer := by rw [commit_eq]
@[simp] theorem commit_cfg (s : State) : (commit s).cfg = s.cfg := by rw [commit_eq]
@[simp] theorem commit_out (s : State) : (commit s).out = s.out := by rw [commit_eq]
@[simp] theorem commit_dev (s : State) : (commit s).dev = s.dev := by rw [commit_eq]
@[simp] theorem commit_calls (s : State) : (commit s).calls = s.calls := by rw [commit_eq]
@[simp] theorem commit_result (s : State) : (commit s).result = s.result := by rw [commit_eq]
@[simp] theorem commit_agenda (s : State) : (commit s).agenda = s.agenda := by rw [commit_eq]

/-- The checksum byte changes Command State, if at all, and the offset. -/
theorem checkByte_eq (b : Byte) (s : State) : checkByte b s =
    { s with
      cmd := if accepts s.framer.csum b then (commit s).cmd else s.cmd
      framer := { s.framer with offset := 0 } } := by
  unfold checkByte
  cases accepts s.framer.csum b
  · rfl
  · simp only [if_true]
    rw [withFramer_eq, commit_eq s]

/-- All that a byte can do: open a frame, be taken at a payload position, or be the checksum byte. -/
theorem rx_eq_next {b : Byte} {s t : State} (h : rx b s = .next t) :
    ((b = 0xFF ∨ s.framer.offset = 0) ∧ s.framer.offset ≠ 7 ∧ t = openFrame s) ∨
    (b ≠ 0xFF ∧ ∃ i, 1 ≤ i ∧ i ≤ 5 ∧ s.framer.offset.toNat = i ∧ t = takePayload i b s) ∨
    (b ≠ 0xFF ∧ s.framer.offset = 6 ∧ t = checkByte b s) := by
  have hs : (b == syncByte) = decide (b = 0xFF) := rfl
  have hlt := s.framer.offset.isLt
  unfold rx at h
  split at h
  case h_1 h0 =>
    have : s.framer.offset = 0 := BitVec.eq_of_toNat_eq (by simpa using h0)
    cases h
    exact .inl ⟨.inr this, by rw [this]; decide, rfl⟩
  case h_8 => cases h
  all_goals
    rename_i hk
    rw [hs] at h
    by_cases hb : b = 0xFF
    · simp only [hb, decide_true, if_true] at h
      cases h
      refine .inl ⟨.inl hb, ?_, rfl⟩
      intro h7; rw [h7] at hk; exact absurd hk (by decide)
    · simp only [hb, decide_false, Bool.false_eq_true, if_false] at h
      cases h
      first
        | exact .inr (.inl ⟨hb, _, by decide, by decide, hk, rfl⟩)
        | exact .inr (.inr ⟨hb, BitVec.eq_of_toNat_eq (by simpa using hk), rfl⟩)

/-- A byte faults at `offset = 7` only, and is never refused. -/
theorem rx_eq_fault {b : Byte} {s : State} {r : Fault} (h : rx b s = .fault r) :
    s.framer.offset = 7 ∧ r = .offsetSeven := by
  have hlt := s.framer.offset.isLt
  unfold rx at h
  split at h
  case h_8 h0 h1 h2 h3 h4 h5 h6 =>
    cases h
    have h7 : s.framer.offset.toNat = 7 := by
      have hlt : s.framer.offset.toNat < 8 := s.framer.offset.isLt
      have n0 : s.framer.offset.toNat ≠ 0 := h0
      have n1 : s.framer.offset.toNat ≠ 1 := h1
      have n2 : s.framer.offset.toNat ≠ 2 := h2
      have n3 : s.framer.offset.toNat ≠ 3 := h3
      have n4 : s.framer.offset.toNat ≠ 4 := h4
      have n5 : s.framer.offset.toNat ≠ 5 := h5
      have n6 : s.framer.offset.toNat ≠ 6 := h6
      omega
    exact ⟨BitVec.eq_of_toNat_eq h7, rfl⟩
  all_goals cases h

theorem rx_not_refused (b : Byte) (s : State) (r : Refusal) : rx b s ≠ .refused r := by
  intro h
  unfold rx at h
  split at h <;> cases h

/-- A byte at a legal offset always ends in a state. -/
theorem rx_total {b : Byte} {s : State} (h : s.framer.offset ≠ 7) : ∃ t, rx b s = .next t := by
  match hr : rx b s with
  | .next t => exact ⟨t, rfl⟩
  | .fault r => exact absurd (rx_eq_fault hr).1 h
  | .refused r => exact absurd hr (rx_not_refused b s r)

/-! ### The collaborators -/

/-- All that `drive` can do: the level was in range, it is stored, and the call leaves. -/
theorem driveMotor_eq_next {m : Motor} {v : NumQ} {s t : State} (h : driveMotor m v s = .next t) :
    levelInRange v = true ∧ t = (s.withOut (storeLevel m v s.out)).emit (.drive m v) := by
  unfold driveMotor at h
  split at h
  · cases h; exact ⟨‹_›, rfl⟩
  · cases h

theorem levelInRange_iff (v : NumQ) : levelInRange v = true ↔ -1 ≤ v ∧ v ≤ 1 := by
  simp [levelInRange]

theorem driveMotor_of_range {m : Motor} {v : NumQ} (s : State) (h : -1 ≤ v ∧ v ≤ 1) :
    driveMotor m v s = .next ((s.withOut (storeLevel m v s.out)).emit (.drive m v)) := by
  unfold driveMotor
  rw [if_pos ((levelInRange_iff v).2 h)]

/-- `drive` faults for no other reason than the level. -/
theorem driveMotor_eq_fault {m : Motor} {v : NumQ} {s : State} {r : Fault} (h : driveMotor m v s = .fault r) :
    levelInRange v = false ∧ r = .levelOutOfRange := by
  unfold driveMotor at h
  split at h
  · cases h
  · rename_i hv; cases h; exact ⟨by simpa using hv, rfl⟩

theorem driveMotor_not_refused (m : Motor) (v : NumQ) (s : State) (r : Refusal) :
    driveMotor m v s ≠ .refused r := by
  intro h
  unfold driveMotor at h
  split at h <;> cases h

@[simp] theorem writeWidth_cfg (p : Pwm) (v : NumQ) (s : State) : (writeWidth p v s).cfg = s.cfg := rfl
@[simp] theorem writeWidth_framer (p : Pwm) (v : NumQ) (s : State) : (writeWidth p v s).framer = s.framer := rfl
@[simp] theorem writeWidth_cmd (p : Pwm) (v : NumQ) (s : State) : (writeWidth p v s).cmd = s.cmd := rfl
@[simp] theorem writeWidth_out (p : Pwm) (v : NumQ) (s : State) : (writeWidth p v s).out = storeWidth p v s.out := rfl
@[simp] theorem writeWidth_dev (p : Pwm) (v : NumQ) (s : State) : (writeWidth p v s).dev = s.dev := rfl
@[simp] theorem writeWidth_calls (p : Pwm) (v : NumQ) (s : State) :
    (writeWidth p v s).calls = s.calls ++ [.setPulseWidth p v] := rfl
@[simp] theorem writeWidth_result (p : Pwm) (v : NumQ) (s : State) : (writeWidth p v s).result = s.result := rfl
@[simp] theorem writeWidth_agenda (p : Pwm) (v : NumQ) (s : State) : (writeWidth p v s).agenda = s.agenda := rfl

/-! ### The smoothing rule and the targets -/

/-- A smoothing step is a weighted mean of the two ends (42_smoothing.md R183 (d)). -/
theorem smoothNext_mean (c t g : NumQ) : smoothNext c t g = (1 - g) * c + g * t := by
  unfold smoothNext; ring

theorem triNum_range (t : Tri) : -1 ≤ triNum t ∧ triNum t ≤ 1 := by
  cases t <;> simp [triNum]

theorem countNum_nonneg (b : Byte) : 0 ≤ countNum b := by
  unfold countNum; exact_mod_cast Nat.zero_le _

theorem countNum_le (b : Byte) : countNum b ≤ 255 := by
  have h := b.isLt
  unfold countNum
  exact_mod_cast Nat.le_of_lt_succ h

/-! ### Reset -/

/-- The set-up calls leave the settings and the five calls, and nothing else. -/
theorem setUp_eq (s : State) :
    setUp s = { s with dev := resetDevices s.cfg, calls := s.calls ++ setupCalls s.cfg } := by
  unfold setUp setRefreshPeriod setPeriod
  simp [State.withDev, State.emit, resetDevices, setupCalls]

/-- The registers after reset, and nothing else. -/
theorem resetRegisters_eq (s : State) : resetRegisters s =
    { s with framer := resetFramer, cmd := resetCommand s.cfg, out := resetOutputs s.cfg } := rfl

end Sys2Proof.Machine
end

