-- ==== Sys2Proof/Laws/PerInstr.lean ====
section
/-!
SUPPORT. Statements made for each operation: the number of bytes the encoder writes is the one the operation's format in
the opcode table has.
-/

namespace Sys2Proof.Laws

/-- The bytes of the row's format (30_encoding.md R90, R93, R100, R104): one for formats BYTE and EXT, seven for PKT,
none for EVENT. -/
def formatBytes : Instr → Nat
  | .rxResync | .rxSync _ | .rxPay1 _ | .rxPay2 _ | .rxPay3 _ | .rxPay4 _ | .rxPay5 _ | .rxCheck _ => 1
  | .pkt _ _ _ _ _ _ => 7
  | .ext _ _ _ _ _ _ | .decLeftReverse _ | .decLeftMove _ | .decLeftStop _ | .decRightReverse _ | .decRightMove _
  | .decRightStop _ | .decLift0 _ | .decLift1 _ | .decLift2 _ | .decLift3 _ | .commitOpen | .commitLocked => 1
  | .rxNone | .smooth _ _ _ | .tgtLeft _ | .tgtRight _ | .tgtLift _ | .tgtRot _ | .tgtChin _ | .updLeft _
  | .updRight _ | .updLift _ | .updRot _ | .updChin _ | .iter | .rst => 0

end Sys2Proof.Laws

/-- The encoder writes as many bytes as the row's format has. -/
def Sys2Proof.Laws.EncodedLength.Statement (i : Sys2Proof.Instr) : Prop :=
  (Sys2Proof.encode i).2.length = Sys2Proof.Laws.formatBytes i

namespace Sys2Proof.Laws.EncodedLength

theorem rxResync : Statement .rxResync := rfl
theorem rxSync (b : Byte) : Statement (.rxSync b) := rfl
theorem rxPay1 (b : Byte) : Statement (.rxPay1 b) := rfl
theorem rxPay2 (b : Byte) : Statement (.rxPay2 b) := rfl
theorem rxPay3 (b : Byte) : Statement (.rxPay3 b) := rfl
theorem rxPay4 (b : Byte) : Statement (.rxPay4 b) := rfl
theorem rxPay5 (b : Byte) : Statement (.rxPay5 b) := rfl
theorem rxCheck (b : Byte) : Statement (.rxCheck b) := rfl
theorem rxNone : Statement .rxNone := rfl
theorem pkt (e c y x z k : Byte) : Statement (.pkt e c y x z k) := rfl
theorem ext (a r : BitVec 1) (m l : BitVec 2) (k z : BitVec 1) : Statement (.ext a r m l k z) := rfl
theorem decLeftReverse (e : Byte) : Statement (.decLeftReverse e) := rfl
theorem decLeftMove (e : Byte) : Statement (.decLeftMove e) := rfl
theorem decLeftStop (e : Byte) : Statement (.decLeftStop e) := rfl
theorem decRightReverse (e : Byte) : Statement (.decRightReverse e) := rfl
theorem decRightMove (e : Byte) : Statement (.decRightMove e) := rfl
theorem decRightStop (e : Byte) : Statement (.decRightStop e) := rfl
theorem decLift0 (e : Byte) : Statement (.decLift0 e) := rfl
theorem decLift1 (e : Byte) : Statement (.decLift1 e) := rfl
theorem decLift2 (e : Byte) : Statement (.decLift2 e) := rfl
theorem decLift3 (e : Byte) : Statement (.decLift3 e) := rfl
theorem commitOpen : Statement .commitOpen := rfl
theorem commitLocked : Statement .commitLocked := rfl
theorem smooth (c t g : NumQ) : Statement (.smooth c t g) := rfl
theorem tgtLeft (snap : CommandState) : Statement (.tgtLeft snap) := rfl
theorem tgtRight (snap : CommandState) : Statement (.tgtRight snap) := rfl
theorem tgtLift (snap : CommandState) : Statement (.tgtLift snap) := rfl
theorem tgtRot (snap : CommandState) : Statement (.tgtRot snap) := rfl
theorem tgtChin (snap : CommandState) : Statement (.tgtChin snap) := rfl
theorem updLeft (t : NumQ) : Statement (.updLeft t) := rfl
theorem updRight (t : NumQ) : Statement (.updRight t) := rfl
theorem updLift (t : NumQ) : Statement (.updLift t) := rfl
theorem updRot (t : NumQ) : Statement (.updRot t) := rfl
theorem updChin (t : NumQ) : Statement (.updChin t) := rfl
theorem iter : Statement .iter := rfl
theorem rst : Statement .rst := rfl

end Sys2Proof.Laws.EncodedLength
end

