-- ==== Sys2Proof/Laws/Step.lean ====
section
/-!
SUPPORT. What is fetched for each kind of line, what a step does with what is decoded, and that the operation map of
30_encoding.md R100 agrees with the transition rule of 40_framer.md R130.
-/

namespace Sys2Proof.Machine

theorem fetch_nil {s : State} (h : s.agenda = []) : fetch s = (.tick, [], s) := by
  simp [fetch, h]

theorem fetch_rst {s : State} {rest : List Line} (h : s.agenda = .rst :: rest) :
    fetch s = (.reset, [], s.withAgenda rest) := by
  simp [fetch, h]

theorem fetch_byte {s : State} {b : Byte} {rest : List Line} (h : s.agenda = .byte b :: rest) :
    fetch s = (.rx s.framer.offset, [b], s.withAgenda rest) := by
  simp [fetch, h]

theorem fetch_noByte {s : State} {rest : List Line} (h : s.agenda = .noByte :: rest) :
    fetch s = (.rx s.framer.offset, [], s.withAgenda rest) := by
  simp [fetch, h]

theorem fetch_tick {s : State} {rest : List Line} (h : s.agenda = .tick :: rest) :
    fetch s = (.tick, [], s.withAgenda rest) := by
  simp [fetch, h]

/-- A packet line of the format is fetched whole. -/
theorem fetch_packet {s : State} {e c y x z k : Byte} {rest : List Line}
    (h : s.agenda = .packet e c y x z k :: rest) (hw : [e, c, y, x, z, k].contains syncByte = false) :
    fetch s = (.packet, packetBytes e c y x z k, s.withAgenda rest) := by
  simp only [fetch, h, hw, Bool.false_eq_true, if_false]

/-- A packet line with 0xFF inside is fetched as its first byte, the others following as lines of their own. -/
theorem fetch_packet_cut {s : State} {e c y x z k : Byte} {rest : List Line}
    (h : s.agenda = .packet e c y x z k :: rest) (hw : [e, c, y, x, z, k].contains syncByte = true) :
    fetch s = (.rx s.framer.offset, [syncByte],
      s.withAgenda ([e, c, y, x, z, k].map Line.byte ++ rest)) := by
  simp only [fetch, h, hw, if_true]

theorem oneByte_eq_ok {bytes : List Byte} {f : Byte → Decoded} {i : Instr} (h : oneByte bytes f = .ok i) :
    ∃ b, bytes = [b] ∧ f b = .ok i := by
  match bytes, h with
  | [b], h => exact ⟨b, rfl, h⟩

theorem noBytes_eq_ok {bytes : List Byte} {d : Decoded} {i : Instr} (h : noBytes bytes d = .ok i) :
    bytes = [] ∧ d = .ok i := by
  match bytes, h with
  | [], h => exact ⟨rfl, h⟩

theorem decodeRx_eq_ok {o : Offset} {bytes : List Byte} {i : Instr} (h : decodeRx o bytes = .ok i) :
    (bytes = [] ∧ i = .rxNone) ∨ ∃ b, bytes = [b] ∧ decodeByte o b = .ok i := by
  match bytes, h with
  | [], h => cases h; exact .inl ⟨rfl, rfl⟩
  | [b], h => exact .inr ⟨b, rfl, h⟩

/-- What a packet's bytes must be to be decoded. -/
theorem decodeSeven_eq_ok {bytes : List Byte} {i : Instr} (h : decodeSeven bytes = .ok i) :
    ∃ e c y x z k, bytes = packetBytes e c y x z k ∧ [e, c, y, x, z, k].contains syncByte = false ∧
      i = .pkt e c y x z k := by
  unfold decodeSeven at h
  split at h
  case h_2 => cases h
  case h_1 f e c y x z k =>
    unfold decodePacket at h
    split at h
    · cases h
    · rename_i hf
      split at h
      · cases h
      · rename_i hc
        have hf' : f = syncByte := by simpa using hf
        cases h
        exact ⟨e, c, y, x, z, k, by rw [hf', packetBytes], by simpa using hc, rfl⟩

/-- The bytes of a packet without 0xFF inside are decoded to it. -/
theorem decodeSeven_packet {e c y x z k : Byte} (h : [e, c, y, x, z, k].contains syncByte = false) :
    decodeSeven (packetBytes e c y x z k) = .ok (.pkt e c y x z k) := by
  show decodePacket syncByte e c y x z k = _
  unfold decodePacket
  rw [if_neg (by decide), h]
  rfl

theorem step_of_fetch {s t : State} {src : Source} {bytes : List Byte} {i : Instr}
    (hf : fetch s = (src, bytes, t)) (hd : decode src bytes = .ok i) : step s = exec i t := by
  simp [step, hf, hd]

/-- The row that a byte selects performs what the transition rule says; where no row is, the rule faults too. -/
theorem decodeByte_rx (b : Byte) (s : State) :
    (∃ i, decode (.rx s.framer.offset) [b] = .ok i ∧ exec i s = rx b s) ∨
      (s.framer.offset = 7 ∧ decode (.rx s.framer.offset) [b] = .error .offsetSeven ∧
        rx b s = .fault .offsetSeven) := by
  have h : ∀ o : Offset, s.framer.offset = o →
      (∃ i, decodeByte o b = .ok i ∧ exec i s = rx b s) ∨
        (o = 7 ∧ decodeByte o b = .error .offsetSeven ∧ rx b s = .fault .offsetSeven) := by
    intro o ho
    have hr : rx b s = rx b s := rfl
    unfold rx at hr ⊢
    rw [ho]
    match o with
    | 0#3 => by_cases hb : (b == syncByte) = true <;> simp [decodeByte, hb, exec, execRxResync, execRxSync]
    | 1#3 => by_cases hb : (b == syncByte) = true <;> simp [decodeByte, hb, exec, execRxResync, execRxPay1]
    | 2#3 => by_cases hb : (b == syncByte) = true <;> simp [decodeByte, hb, exec, execRxResync, execRxPay2]
    | 3#3 => by_cases hb : (b == syncByte) = true <;> simp [decodeByte, hb, exec, execRxResync, execRxPay3]
    | 4#3 => by_cases hb : (b == syncByte) = true <;> simp [decodeByte, hb, exec, execRxResync, execRxPay4]
    | 5#3 => by_cases hb : (b == syncByte) = true <;> simp [decodeByte, hb, exec, execRxResync, execRxPay5]
    | 6#3 => by_cases hb : (b == syncByte) = true <;> simp [decodeByte, hb, exec, execRxResync, execRxCheck]
    | 7#3 => simp [decodeByte]
  exact h _ rfl

/-- A step on a byte is the transition rule, with the line taken. -/
theorem step_byte {s : State} {b : Byte} {rest : List Line} (h : s.agenda = .byte b :: rest) :
    step s = rx b (s.withAgenda rest) := by
  have hf := fetch_byte h
  rcases decodeByte_rx b (s.withAgenda rest) with ⟨i, hd, he⟩ | ⟨_, hd, he⟩
  · rw [← he]
    exact step_of_fetch hf hd
  · rw [he]
    have hd' : decode (.rx s.framer.offset) [b] = .error .offsetSeven := hd
    simp [step, hf, hd']

end Sys2Proof.Machine
end

