-- ==== Sys2Proof/Tests/Slice0.lean ====
section
/-!
SUPPORT. Tests: ill-formed operations that WellFormed refuses, words of 30_encoding.md and the opcode table decoded, one
step of each operation against the vectors of 95 (part 2), and, for each statement with hypotheses, a concrete case that
meets them.
-/

namespace Sys2Proof.Tests

open Sys2Proof Sys2Proof.Machine

-- The kernel evaluates the tests one after another: many small evaluations at once exhaust the threads.
set_option Elab.async false

/-! ### Helpers -/

/-- The test configuration T0 of spec/95; the two periods, which T0 does not give, are this file's own. -/
def cfgT0 : Config :=
  { rotMin := 500, rotMax := 2400, chinMin := 1000, chinMax := 1600, rotNeutral := 1450, chinNeutral := 1300,
    chinInit := 0, rotXInit := 0, rotYInit := 0, rotZInit := 0, pwmPeriod := 20000, motorRefreshPeriod := 10 }

/-- The reset state under T0. -/
def s0 : State := State.afterReset cfgT0

/-- The reset state with this framer: offset, checksum, and the pools in wire order. -/
def framed (o : Offset) (k e c y x z : Byte) : State :=
  { s0 with framer := { offset := o, csum := k, pExt := e, pChin := c, pRotY := y, pRotX := x, pRotZ := z } }

/-- The Command State that V3.1 to V3.4 start from: `0x04, 100, 5, 7, 9 / 0, 0, +1`. -/
def cmd0 : CommandState :=
  { extended := 0x04, chin := 100, rotX := 5, rotY := 7, rotZ := 9, leftTargetSpeed := .zero,
    rightTargetSpeed := .zero, liftDirection := .pos }

/-- The reset state with these levels. -/
def driven (l r f : NumQ) : State := { s0 with out := { s0.out with lvlL := l, lvlR := r, lvlLift := f } }

/-- These events to come. -/
def given (s : State) (ls : List Line) : State := { s with agenda := ls }

/-- The next state, if the answer is one. -/
def nextOf (a : Answer) : Option State :=
  match a with
  | .next s => some s
  | _ => none

/-- The answer is a next state that passes a check. -/
def nextIs (a : Answer) (p : State → Bool) : Bool :=
  match a with
  | .next s => p s
  | _ => false

/-- The answer is this fault. -/
def faultIs (a : Answer) (r : Fault) : Bool :=
  match a with
  | .fault q => q == r
  | _ => false

/-- The answer is this refusal. -/
def refusalIs (a : Answer) (r : Refusal) : Bool :=
  match a with
  | .refused q => q == r
  | _ => false

/-- The decoder gives this operation. -/
def decodesTo (src : Source) (bytes : List Byte) (i : Instr) : Bool :=
  match decode src bytes with
  | .ok j => j == i
  | .error _ => false

/-- The decoder gives no operation, for this reason. -/
def rejectedFor (src : Source) (bytes : List Byte) (why : Reject) : Bool :=
  match decode src bytes with
  | .ok _ => false
  | .error r => r == why

theorem exists_next {a : Answer} (h : nextIs a (fun _ => true) = true) : ∃ t, a = .next t := by
  cases a with
  | next s => exact ⟨s, rfl⟩
  | fault r => cases h
  | refused r => cases h

theorem fault_of_faultIs {a : Answer} {r : Fault} (h : faultIs a r = true) : a = .fault r := by
  cases a with
  | next s => cases h
  | refused q => cases h
  | fault q => exact congrArg _ (of_decide_eq_true h)

/-! ### WellFormed refuses -/

theorem test_illformed_sync : (Instr.rxSync 0xFF).wellFormed = false := by decide +kernel
theorem test_illformed_payload :
    ((Instr.rxPay1 0xFF).wellFormed || (Instr.rxPay2 0xFF).wellFormed || (Instr.rxPay3 0xFF).wellFormed ||
      (Instr.rxPay4 0xFF).wellFormed || (Instr.rxPay5 0xFF).wellFormed) = false := by decide +kernel
theorem test_illformed_check : (Instr.rxCheck 0xFF).wellFormed = false := by decide +kernel
theorem test_illformed_packet :
    ((Instr.pkt 0xFF 0 0 0 0 0).wellFormed || (Instr.pkt 0 0xFF 0 0 0 0).wellFormed ||
      (Instr.pkt 0 0 0xFF 0 0 0).wellFormed || (Instr.pkt 0 0 0 0xFF 0 0).wellFormed ||
      (Instr.pkt 0 0 0 0 0xFF 0).wellFormed || (Instr.pkt 0 0 0 0 0 0xFF).wellFormed) = false := by decide +kernel
theorem test_illformed_flags : (Instr.ext 1 1 0b11 0b11 1 1).wellFormed = false := by decide +kernel
theorem test_illformed_left :
    ((Instr.decLeftReverse 0x3F).wellFormed || (Instr.decLeftMove 0x50).wellFormed ||
      (Instr.decLeftMove 0x20).wellFormed || (Instr.decLeftStop 0x10).wellFormed ||
      (Instr.decLeftStop 0x40).wellFormed) = false := by decide +kernel
theorem test_illformed_right :
    ((Instr.decRightReverse 0x3F).wellFormed || (Instr.decRightMove 0x60).wellFormed ||
      (Instr.decRightMove 0x10).wellFormed || (Instr.decRightStop 0x20).wellFormed ||
      (Instr.decRightStop 0x40).wellFormed) = false := by decide +kernel
theorem test_illformed_lift :
    ((Instr.decLift0 0x04).wellFormed || (Instr.decLift1 0x08).wellFormed || (Instr.decLift2 0x04).wellFormed ||
      (Instr.decLift3 0x08).wellFormed) = false := by decide +kernel
theorem test_illformed_gain :
    ((Instr.smooth 0 1 0).wellFormed || (Instr.smooth 0 1 (11 / 10)).wellFormed ||
      (Instr.smooth 0 1 (-1 / 2)).wellFormed) = false := by decide +kernel
theorem test_illformed_level :
    ((Instr.updLeft (1 / 2)).wellFormed || (Instr.updRight 2).wellFormed || (Instr.updLift (-1 / 2)).wellFormed) =
      false := by decide +kernel

/-! ### Words decoded. The words are written out from the rows of the opcode table. -/

theorem test_word_resync : decodesTo (.rx 6) [0b11111111] .rxResync = true := by decide +kernel
theorem test_word_sync : decodesTo (.rx 0) [0b00010010] (.rxSync 0x12) = true := by decide +kernel
theorem test_word_pay1 : decodesTo (.rx 1) [0b00010000] (.rxPay1 0x10) = true := by decide +kernel
theorem test_word_pay2 : decodesTo (.rx 2) [0b00100000] (.rxPay2 0x20) = true := by decide +kernel
theorem test_word_pay3 : decodesTo (.rx 3) [0b11110000] (.rxPay3 0xF0) = true := by decide +kernel
theorem test_word_pay4 : decodesTo (.rx 4) [0b00000101] (.rxPay4 0x05) = true := by decide +kernel
theorem test_word_pay5 : decodesTo (.rx 5) [0b11111110] (.rxPay5 0xFE) = true := by decide +kernel
theorem test_word_check : decodesTo (.rx 6) [0b00100011] (.rxCheck 0x23) = true := by decide +kernel
theorem test_word_none : decodesTo (.rx 3) [] .rxNone = true := by decide +kernel
/-- The bytes of program P2's first packet. -/
theorem test_word_packet :
    decodesTo .packet [0xFF, 0x04, 0x64, 0x07, 0x05, 0x09, 0x7D] (.pkt 0x04 100 7 5 9 0x7D) = true := by decide +kernel
/-- `-RmmllK-` with reverse 1, move 0b01, lift 0b10, lock 1 and the unassigned bits 0. -/
theorem test_word_ext : decodesTo .flags [0b01011010] (.ext 0 1 0b01 0b10 1 0) = true := by decide +kernel
theorem test_word_left_reverse : decodesTo .leftWheel [0b01010000] (.decLeftReverse 0x50) = true := by decide +kernel
theorem test_word_left_move : decodesTo .leftWheel [0b00010000] (.decLeftMove 0x10) = true := by decide +kernel
theorem test_word_left_stop : decodesTo .leftWheel [0b10100000] (.decLeftStop 0xA0) = true := by decide +kernel
theorem test_word_right_reverse : decodesTo .rightWheel [0b01100000] (.decRightReverse 0x60) = true := by decide +kernel
theorem test_word_right_move : decodesTo .rightWheel [0b00100000] (.decRightMove 0x20) = true := by decide +kernel
theorem test_word_right_stop : decodesTo .rightWheel [0b10010000] (.decRightStop 0x90) = true := by decide +kernel
theorem test_word_lift0 : decodesTo .liftCode [0b11110011] (.decLift0 0xF3) = true := by decide +kernel
theorem test_word_lift1 : decodesTo .liftCode [0b00000100] (.decLift1 0x04) = true := by decide +kernel
theorem test_word_lift2 : decodesTo .liftCode [0b00001000] (.decLift2 0x08) = true := by decide +kernel
theorem test_word_lift3 : decodesTo .liftCode [0b00001100] (.decLift3 0x0C) = true := by decide +kernel
theorem test_word_commit_open : decodesTo .lockBit [0b11111101] .commitOpen = true := by decide +kernel
theorem test_word_commit_locked : decodesTo .lockBit [0b00000010] .commitLocked = true := by decide +kernel
theorem test_event_smooth : decodesTo (.smooth 0 1 (3 / 10)) [] (.smooth 0 1 (3 / 10)) = true := by decide +kernel
theorem test_event_targets :
    (decodesTo (.target .left cmd0) [] (.tgtLeft cmd0) && decodesTo (.target .right cmd0) [] (.tgtRight cmd0) &&
      decodesTo (.target .lift cmd0) [] (.tgtLift cmd0) && decodesTo (.target .rot cmd0) [] (.tgtRot cmd0) &&
      decodesTo (.target .chin cmd0) [] (.tgtChin cmd0)) = true := by decide +kernel
theorem test_event_updates :
    (decodesTo (.update .left 1) [] (.updLeft 1) && decodesTo (.update .right (-1)) [] (.updRight (-1)) &&
      decodesTo (.update .lift 0) [] (.updLift 0) && decodesTo (.update .rot 2400) [] (.updRot 2400) &&
      decodesTo (.update .chin 1300) [] (.updChin 1300)) = true := by decide +kernel
theorem test_event_tick_reset : (decodesTo .tick [] .iter && decodesTo .reset [] .rst) = true := by decide +kernel
theorem test_rejected :
    (rejectedFor (.rx 7) [0xFF] .offsetSeven && rejectedFor (.rx 0) [1, 2] .wrongLength &&
      rejectedFor .packet [0xFE, 0, 0, 0, 0, 0, 0] .noSync &&
      rejectedFor .packet [0xFF, 0, 0, 0, 0, 0, 0xFF] .syncInsidePacket &&
      rejectedFor .flags [0xFF] .syncAsFlags && rejectedFor (.smooth 0 1 2) [] .gainOutsideDomain && rejectedFor (.update .lift 2) [] .notALevelTarget) =
      true := by decide +kernel
/-- The host's numbering: the first byte of a packet is bits 7 to 0. -/
theorem test_table_word :
    decodeTableWord 56 0x7D0905076404FF = some (.pkt 0x04 100 7 5 9 0x7D) ∧
      decodeTableWord 8 0xFF = some .rxResync ∧ decodeTableWord 8 0x12 = some (.rxSync 0x12) ∧
      decodeTableWord 0 0 = some .rxNone := by decide +kernel

/-! ### One step of each operation, against the vectors of spec/95 -/

/-- V1.5. -/
theorem test_resync :
    nextIs (exec .rxResync (framed 4 0x7A 1 2 3 4 5)) (fun t => t == framed 1 0x00 1 2 3 4 5) = true := by decide +kernel
/-- V1.3. -/
theorem test_sync :
    nextIs (exec (.rxSync 0x7E) (framed 0 0x5A 1 2 3 4 5)) (fun t => t == framed 1 0x00 1 2 3 4 5) = true := by decide +kernel
/-- V1.8. -/
theorem test_pay1 :
    nextIs (exec (.rxPay1 0x10) (framed 1 0 1 2 3 4 5)) (fun t => t == framed 2 0x10 0x10 2 3 4 5) = true := by decide +kernel
/-- V1.9. -/
theorem test_pay2 :
    nextIs (exec (.rxPay2 0x20) (framed 2 0x10 0x10 2 3 4 5))
      (fun t => t == framed 3 0x30 0x10 0x20 3 4 5) = true := by decide +kernel
/-- V1.10: the sum wraps. -/
theorem test_pay3 :
    nextIs (exec (.rxPay3 0xF0) (framed 3 0x30 0x10 0x20 3 4 5))
      (fun t => t == framed 4 0x20 0x10 0x20 0xF0 4 5) = true := by decide +kernel
/-- V1.11. -/
theorem test_pay4 :
    nextIs (exec (.rxPay4 0x05) (framed 4 0x20 0x10 0x20 0xF0 4 5))
      (fun t => t == framed 5 0x25 0x10 0x20 0xF0 0x05 5) = true := by decide +kernel
/-- V1.12. -/
theorem test_pay5 :
    nextIs (exec (.rxPay5 0xFE) (framed 5 0x25 0x10 0x20 0xF0 0x05 5))
      (fun t => t == framed 6 0x23 0x10 0x20 0xF0 0x05 0xFE) = true := by decide +kernel
/-- V1.14 with V3.1: `rotX` is the fourth payload byte. -/
theorem test_check_accept :
    nextIs (exec (.rxCheck 0x23) { framed 6 0x23 0x10 1 2 3 4 with cmd := cmd0 }) (fun t =>
      t.framer.offset == 0 && t.framer.csum == 0x23 && t.cmd.extended == 0x10 && t.cmd.chin == 1 && t.cmd.rotX == 3 &&
        t.cmd.rotY == 2 && t.cmd.rotZ == 4 && t.cmd.leftTargetSpeed == .pos && t.cmd.liftDirection == .zero) =
      true := by decide +kernel
/-- V1.15. -/
theorem test_check_reject :
    nextIs (exec (.rxCheck 0x24) (framed 6 0x23 0x10 1 2 3 4)) (fun t => t == framed 0 0x23 0x10 1 2 3 4) =
      true := by decide +kernel
/-- V2.1 to V2.7 and V2.10. -/
theorem test_accept_vectors :
    (accepts 0x10 0x10 && !accepts 0x10 0x11 && accepts 0x00 0x00 && accepts 0xFE 0xFE && accepts 0xFF 0xFE &&
      !accepts 0xFE 0xFD && !accepts 0xFF 0x00 && !accepts 0x00 0xFE) = true := by decide +kernel
/-- V1.13. -/
theorem test_none :
    nextIs (exec .rxNone (framed 3 0x30 1 2 3 4 5)) (fun t => t == framed 3 0x30 1 2 3 4 5) = true := by decide +kernel
/-- Program P6: the checksum wraps three times. -/
theorem test_packet :
    nextIs (exec (.pkt 0x30 0xF0 0xF0 0xF0 0xF0 0xF0) s0) (fun t =>
      t.framer.offset == 0 && t.framer.csum == 0xF0 && t.cmd.extended == 0x30 && t.cmd.rotX == 240 &&
        t.cmd.leftTargetSpeed == .pos && t.cmd.rightTargetSpeed == .neg) = true := by decide +kernel
/-- Program P4: the tolerance. -/
theorem test_packet_tolerance :
    nextIs (exec (.pkt 0x40 0xBF 0 0 0 0xFE) s0) (fun t =>
      t.framer.csum == 0xFF && t.cmd.chin == 191 && t.cmd.leftTargetSpeed == .neg) = true := by decide +kernel
/-- The flags byte of program P1, reverse 0, move 0b01, lift 0, lock 0. -/
theorem test_ext :
    nextIs (exec (.ext 0 0 0b01 0 0 0) s0) (fun t => t.result == .byte 0x10) = true := by decide +kernel
/-- V3.13. -/
theorem test_dec_left_reverse :
    nextIs (exec (.decLeftReverse 0x50) s0) (fun t => t.cmd.leftTargetSpeed == .neg) = true := by decide +kernel
/-- V3.11. -/
theorem test_dec_left_move :
    nextIs (exec (.decLeftMove 0x30) s0) (fun t => t.cmd.leftTargetSpeed == .pos) = true := by decide +kernel
/-- V3.10. -/
theorem test_dec_left_stop :
    nextIs (exec (.decLeftStop 0x20) s0) (fun t => t.cmd.leftTargetSpeed == .zero) = true := by decide +kernel
/-- V3.14. -/
theorem test_dec_right_reverse :
    nextIs (exec (.decRightReverse 0x70) s0) (fun t => t.cmd.rightTargetSpeed == .pos) = true := by decide +kernel
/-- V3.11. -/
theorem test_dec_right_move :
    nextIs (exec (.decRightMove 0x30) s0) (fun t => t.cmd.rightTargetSpeed == .neg) = true := by decide +kernel
/-- V3.9. -/
theorem test_dec_right_stop :
    nextIs (exec (.decRightStop 0x10) s0) (fun t => t.cmd.rightTargetSpeed == .zero) = true := by decide +kernel
/-- V3.7. -/
theorem test_dec_lift0 :
    nextIs (exec (.decLift0 0x00) { s0 with cmd := cmd0 }) (fun t => t.cmd.liftDirection == .zero) = true := by decide +kernel
/-- V3.17. -/
theorem test_dec_lift1 :
    nextIs (exec (.decLift1 0x06) s0) (fun t => t.cmd.liftDirection == .pos) = true := by decide +kernel
/-- V3.5. -/
theorem test_dec_lift2 :
    nextIs (exec (.decLift2 0x08) s0) (fun t => t.cmd.liftDirection == .neg) = true := by decide +kernel
/-- V3.8. -/
theorem test_dec_lift3 :
    nextIs (exec (.decLift3 0x0C) { s0 with cmd := cmd0 }) (fun t => t.cmd.liftDirection == .zero) = true := by decide +kernel
/-- V3.4: bits 7 and 0 are stored and ignored. -/
theorem test_commit_open :
    nextIs (exec .commitOpen { framed 6 0 0x81 0 0 0 0 with cmd := cmd0 }) (fun t =>
      t.cmd.extended == 0x81 && t.cmd.chin == 0 && t.cmd.rotX == 0 && t.cmd.liftDirection == .zero) = true := by decide +kernel
/-- V3.3: the lock holds the counts and not the lift. -/
theorem test_commit_locked :
    nextIs (exec .commitLocked { framed 6 0 0x0A 0x11 0x22 0x33 0x44 with cmd := cmd0 }) (fun t =>
      t.cmd == { cmd0 with extended := 0x0A, liftDirection := .neg }) = true := by decide +kernel
/-- V4.4. -/
theorem test_smooth :
    nextIs (exec (.smooth 1450 2400 (1 / 5)) s0) (fun t => t.result == .num 1640) = true := by decide +kernel
/-- V4.5a, the closed end of the gain's domain. -/
theorem test_smooth_gain_one :
    nextIs (exec (.smooth 7 (-3) 1) s0) (fun t => t.result == .num (-3)) = true := by decide +kernel
/-- V5.1. -/
theorem test_tgt_left :
    nextIs (exec (.tgtLeft { cmd0 with leftTargetSpeed := .pos }) s0) (fun t => t.result == .num 1) = true := by decide +kernel
/-- V5.2. -/
theorem test_tgt_right :
    nextIs (exec (.tgtRight { cmd0 with rightTargetSpeed := .neg }) s0) (fun t => t.result == .num (-1)) =
      true := by decide +kernel
/-- V5.3. -/
theorem test_tgt_lift :
    nextIs (exec (.tgtLift { cmd0 with liftDirection := .neg }) s0) (fun t => t.result == .num (-1)) = true := by decide +kernel
/-- V5.5. -/
theorem test_tgt_rot_zero :
    nextIs (exec (.tgtRot { cmd0 with rotX := 0 }) s0) (fun t => t.result == .num 500) = true := by decide +kernel
/-- V5.6: the inverted clamp. -/
theorem test_tgt_rot_one :
    nextIs (exec (.tgtRot { cmd0 with rotX := 1 }) s0) (fun t => t.result == .num 2400) = true := by decide +kernel
/-- V5.12. -/
theorem test_tgt_chin :
    nextIs (exec (.tgtChin { cmd0 with chin := 191 }) s0) (fun t => t.result == .num 1573) = true := by decide +kernel
/-- V5.14. -/
theorem test_tgt_chin_clamped :
    nextIs (exec (.tgtChin { cmd0 with chin := 201 }) s0) (fun t => t.result == .num 1600) = true := by decide +kernel
/-- V4.2 on the left motor. -/
theorem test_upd_left :
    nextIs (exec (.updLeft 1) (driven (3 / 10) 0 0)) (fun t =>
      t.out == (driven (51 / 100) 0 0).out && t.calls == s0.calls ++ [.drive .left (51 / 100)]) =
      true := by decide +kernel
/-- V6.5 on the right motor. -/
theorem test_upd_right :
    nextIs (exec (.updRight (-1)) s0) (fun t =>
      t.out == (driven 0 (-3 / 10) 0).out && t.calls == s0.calls ++ [.drive .right (-3 / 10)]) = true := by decide +kernel
/-- V4.3 on the lift. -/
theorem test_upd_lift :
    nextIs (exec (.updLift (-1)) (driven 0 0 (1 / 2))) (fun t =>
      t.out == (driven 0 0 (-1 / 4)).out && t.calls == s0.calls ++ [.drive .lift (-1 / 4)]) = true := by decide +kernel
/-- V4.4 on the rotation joint. -/
theorem test_upd_rot :
    nextIs (exec (.updRot 2400) s0) (fun t =>
      t.out == { s0.out with pwRot := 1640 } && t.calls == s0.calls ++ [.setPulseWidth .rot 1640]) = true := by decide +kernel
/-- V6.5 on the chin joint. -/
theorem test_upd_chin :
    nextIs (exec (.updChin 1600) s0) (fun t =>
      t.out == { s0.out with pwChin := 1360 } && t.calls == s0.calls ++ [.setPulseWidth .chin 1360]) =
      true := by decide +kernel
/-- V6.4. -/
theorem test_iter :
    nextIs (exec .iter { s0 with
        cmd := { cmd0 with extended := 0x0A, liftDirection := .neg }
        out := { lvlL := 0, lvlR := 0, lvlLift := 1 / 2, pwRot := 1640, pwChin := 1300 } })
      (fun t => t.out == { lvlL := 0, lvlR := 0, lvlLift := -1 / 4, pwRot := 1792, pwChin := 1300 }) = true := by decide +kernel
/-- V6.3: both wheels and a chin target that is not a whole step. -/
theorem test_iter_reverse :
    nextIs (exec .iter { s0 with
        cmd := { cmd0 with chin := 191, rotX := 0, leftTargetSpeed := .neg, rightTargetSpeed := .pos,
                           liftDirection := .zero } })
      (fun t => t.out == { lvlL := -3 / 10, lvlR := 3 / 10, lvlLift := 0, pwRot := 1260, pwChin := 6773 / 5 }) =
      true := by decide +kernel
/-- V7.1, from a state in which every register has moved. -/
theorem test_rst :
    nextIs (exec .rst { framed 4 9 1 2 3 4 5 with cmd := cmd0, out := ⟨1, 1, 1, 7, 7⟩, calls := [] })
      (fun t => t.framer.offset == 0 && t.cmd == s0.cmd && t.out == s0.out && t.dev == s0.dev &&
        t.calls == s0.calls) = true := by decide +kernel
/-- Program P5 begins so: V7.3. -/
theorem test_step_byte :
    nextIs (step (given s0 [.byte 0x12])) (fun t => t == framed 1 0 0 0 0 0 0) = true := by decide +kernel
/-- Program P7: a packet line with the checksum 0xFF is run as its bytes. -/
theorem test_step_packet_with_ff :
    nextIs (step (given s0 [.packet 0x40 0xBF 0 0 0 0xFF])) (fun t =>
      t.framer.offset == 1 &&
        t.agenda == [.byte 0x40, .byte 0xBF, .byte 0, .byte 0, .byte 0, .byte 0xFF]) = true := by decide +kernel

/-! ### Cases that meet the hypotheses of the statements -/

theorem witness_RxPay1StoresExtended :
    (framed 1 0 1 2 3 4 5).framer.offset = 1 ∧ ChecksumRuns (framed 1 0 1 2 3 4 5).framer ∧
      ∃ t, exec (.rxPay1 0x10) (framed 1 0 1 2 3 4 5) = .next t :=
  ⟨rfl, rfl, exists_next (by decide +kernel)⟩

theorem witness_RxPay5StoresRotZ :
    (framed 5 0x25 0x10 0x20 0xF0 0x05 0).framer.offset = 5 ∧ ChecksumRuns (framed 5 0x25 0x10 0x20 0xF0 0x05 0).framer ∧
      ∃ t, exec (.rxPay5 0xFE) (framed 5 0x25 0x10 0x20 0xF0 0x05 0) = .next t :=
  ⟨rfl, rfl, exists_next (by decide +kernel)⟩

/-- Both disjuncts, and both values of the lock bit. -/
theorem witness_RxCheckAcceptCommits :
    ((framed 6 0x10 0x10 0 0 0 0).framer.csum = 0x10 ∧ (framed 6 0x10 0x10 0 0 0 0).framer.pExt.getLsbD 1 = false) ∧
      ((framed 6 0xFF 0x42 0xBD 0 0 0).framer.csum = 0xFF ∧
        (framed 6 0xFF 0x42 0xBD 0 0 0).framer.pExt.getLsbD 1 = true) := by decide +kernel

theorem witness_RxCheckRejectOnlyResetsOffset :
    ¬((framed 6 0x10 0x10 0 0 0 0).framer.csum = (0x11 : Byte) ∨
      ((framed 6 0x10 0x10 0 0 0 0).framer.csum = 0xFF ∧ (0x11 : Byte) = 0xFE)) ∧
    ¬((framed 6 0xFE 8 0xF6 0 0 0).framer.csum = (0xFD : Byte) ∨
      ((framed 6 0xFE 8 0xF6 0 0 0).framer.csum = 0xFF ∧ (0xFD : Byte) = 0xFE)) := by decide +kernel

/-- A valid packet, a valid one by the tolerance, an invalid one, each well formed, from the offsets 0 and 6. -/
theorem witness_PktIsTestedOnItsOwnPayload :
    (PacketWellFormed 0x10 0 0 0 0 0x10 ∧ PacketValid 0x10 0 0 0 0 0x10) ∧
      (PacketWellFormed 0x40 0xBF 0 0 0 0xFE ∧ PacketValid 0x40 0xBF 0 0 0 0xFE) ∧
      (PacketWellFormed 0x10 0 0 0 0 0x11 ∧ ¬PacketValid 0x10 0 0 0 0 0x11) ∧ s0.framer.offset ≠ 7 ∧
      (framed 6 0 1 2 3 4 5).framer.offset ≠ 7 := by
  unfold PacketWellFormed PacketValid
  decide +kernel

theorem witness_SenderChecksumIsValid :
    ((0x10 : Byte) ≠ 0xFF ∧ PacketValid 0x10 0 0 0 0 0x10) ∧
      ((0xFE : Byte) ≠ 0xFF ∧ PacketValid 0x40 0xBF 0 0 0 0xFE) := by
  unfold PacketValid
  decide +kernel

theorem witness_ExtAssemblesTheFlagsByte : (0 : BitVec 1) = 0 := by decide +kernel

theorem witness_DecodeReadsBits6To2 : (0x10 : Byte) &&& 0x7C = 0x93 &&& 0x7C ∧ (0x10 : Byte) ≠ 0x93 := by decide +kernel

theorem witness_DecLeftRowsGiveTheirResult :
    (0x70 : Byte).getLsbD 6 = true ∧ ((0x10 : Byte).getLsbD 6 = false ∧ (0x10 : Byte).getLsbD 4 = true) ∧
      ((0xAF : Byte).getLsbD 6 = false ∧ (0xAF : Byte).getLsbD 4 = false) := by decide +kernel

theorem witness_DecRightRowsGiveTheirResult :
    (0x70 : Byte).getLsbD 6 = true ∧ ((0x20 : Byte).getLsbD 6 = false ∧ (0x20 : Byte).getLsbD 5 = true) ∧
      ((0x9F : Byte).getLsbD 6 = false ∧ (0x9F : Byte).getLsbD 5 = false) := by decide +kernel

theorem witness_DecLiftRowsGiveTheirResult :
    (0xF3 : Byte).extractLsb' 2 2 = 0#2 ∧ (0x04 : Byte).extractLsb' 2 2 = 1#2 ∧ (0x0B : Byte).extractLsb' 2 2 = 2#2 ∧
      (0x0C : Byte).extractLsb' 2 2 = 3#2 := by decide +kernel

theorem witness_CommitArmsWriteTheirGroup :
    (framed 6 0 0x81 0 0 0 0).framer.pExt.getLsbD 1 = false ∧
      (framed 6 0 0x0A 1 2 3 4).framer.pExt.getLsbD 1 = true := by decide +kernel

/-- Inside the domain of the gain, and its closed end. -/
theorem witness_SmoothReturnsTheNextValue :
    ((0 : NumQ) < 3 / 10 ∧ (3 / 10 : NumQ) ≤ 1) ∧ ((0 : NumQ) < 1 ∧ (1 : NumQ) ≤ 1) := by decide +kernel

/-- The open end of the domain, and a gain above the closed end. -/
theorem witness_SmoothRefusesGainsOutsideItsDomain :
    ¬((0 : NumQ) < 0 ∧ (0 : NumQ) ≤ 1) ∧ ¬((0 : NumQ) < 11 / 10 ∧ (11 / 10 : NumQ) ≤ 1) := by decide +kernel

theorem test_smooth_refused : refusalIs (exec (.smooth 0 1 0) s0) .gainOutsideDomain = true := by decide +kernel

theorem witness_SmoothConvergesWithoutOvershoot :
    (0 : NumQ) < 3 / 10 ∧ (3 / 10 : NumQ) ≤ 1 ∧ (3 / 10 : NumQ) < 1 ∧ (0 : NumQ) ≠ 1 := by decide +kernel

/-- Each level at a bound of its range, with each target. -/
theorem witness_UpdOfAWheelDrivesOneStep :
    ((1 : NumQ) = -1 ∨ (1 : NumQ) = 0 ∨ (1 : NumQ) = 1) ∧ ((-1 : NumQ) = -1 ∨ (-1 : NumQ) = 0 ∨ (-1 : NumQ) = 1) ∧
      (-1 ≤ (driven 1 (-1) 0).out.lvlL ∧ (driven 1 (-1) 0).out.lvlL ≤ 1) ∧
      (-1 ≤ (driven 1 (-1) 0).out.lvlR ∧ (driven 1 (-1) 0).out.lvlR ≤ 1) := by decide +kernel

theorem witness_UpdLiftDrivesOneStep :
    ((0 : NumQ) = -1 ∨ (0 : NumQ) = 0 ∨ (0 : NumQ) = 1) ∧ -1 ≤ (driven 0 0 1).out.lvlLift ∧
      (driven 0 0 1).out.lvlLift ≤ 1 := by decide +kernel

/-- One level for each clause, beyond the bound far enough to stay beyond it. -/
theorem witness_UpdatesOutsideTheRangeFault :
    ¬(-1 ≤ (2 : NumQ) + (1 - 2) * (3 / 10) ∧ (2 : NumQ) + (1 - 2) * (3 / 10) ≤ 1) ∧
      ¬(-1 ≤ (-2 : NumQ) + (0 - -2) * (3 / 10) ∧ (-2 : NumQ) + (0 - -2) * (3 / 10) ≤ 1) ∧
      ¬(-1 ≤ (4 : NumQ) + (0 - 4) * (1 / 2) ∧ (4 : NumQ) + (0 - 4) * (1 / 2) ≤ 1) ∧
      exec (.updLeft 1) (driven 2 0 0) = .fault .levelOutOfRange ∧
      exec (.updRight 0) (driven 0 (-2) 0) = .fault .levelOutOfRange ∧
      exec (.updLift 0) (driven 0 0 4) = .fault .levelOutOfRange :=
  ⟨by decide +kernel, by decide +kernel, by decide +kernel, fault_of_faultIs (by decide +kernel), fault_of_faultIs (by decide +kernel),
    fault_of_faultIs (by decide +kernel)⟩

theorem levels_s0 : LevelsInRange s0.out := by
  unfold LevelsInRange
  decide +kernel

/-- The reset state, and one with two levels at the bounds. -/
theorem witness_IterMovesEveryOutputOnce : LevelsInRange s0.out ∧ LevelsInRange (driven 1 (-1) 0).out := by
  unfold LevelsInRange
  decide +kernel

theorem witness_UpdatesOfTwoActuatorsCommute :
    Actuator.left ≠ Actuator.chin ∧ updateOf .left 1 = .ok (.updLeft 1) ∧ updateOf .chin 1300 = .ok (.updChin 1300) ∧
      LevelsInRange s0.out :=
  ⟨by decide +kernel, rfl, rfl, levels_s0⟩

/-- An agenda for each clause. -/
theorem witness_StepRunsTheDecodedOperation :
    s0.agenda = [] ∧ (given s0 [.tick]).agenda = .tick :: [] ∧ (given s0 [.noByte]).agenda = .noByte :: [] ∧
      (given s0 [.rst]).agenda = .rst :: [] ∧
      ((given s0 [.byte 0xFF]).agenda = .byte 0xFF :: [] ∧
        decode (.rx (given s0 [.byte 0xFF]).framer.offset) [0xFF] = .ok .rxResync) ∧
      ((given s0 [.packet 0x10 0 0 0 0 0x10]).agenda = .packet 0x10 0 0 0 0 0x10 :: [] ∧
        PacketWellFormed 0x10 0 0 0 0 0x10) :=
  ⟨rfl, rfl, rfl, rfl, ⟨rfl, rfl⟩, rfl, witness_PktIsTestedOnItsOwnPayload.1.1⟩

/-- A word of each width. -/
theorem witness_PlacedWordRunsNext :
    s0.framer.offset = 0 ∧ decodeTableWord 8 0xFF = some .rxResync ∧ decodeTableWord 0 0 = some .rxNone ∧
      decodeTableWord 56 0x100000000010FF = some (.pkt 0x10 0 0 0 0 0x10) := by decide +kernel

/-- A byte on offset 3, and the sync byte on offset 6. -/
theorem witness_ByteStepIsTheTransitionRule :
    ((given (framed 3 0x30 1 2 3 4 5) [.byte 0xF0]).framer.offset ≠ 7 ∧
        (given (framed 3 0x30 1 2 3 4 5) [.byte 0xF0]).agenda = .byte 0xF0 :: []) ∧
      ((given (framed 6 0xFF 1 2 3 4 5) [.byte 0xFF]).framer.offset ≠ 7 ∧
        (given (framed 6 0xFF 1 2 3 4 5) [.byte 0xFF]).agenda = .byte 0xFF :: []) := by decide +kernel

theorem witness_OffsetSevenFaults :
    (given (framed 7 0 1 2 3 4 5) [.byte 0xFF]).framer.offset = 7 ∧
      (given (framed 7 0 1 2 3 4 5) [.byte 0xFF]).agenda = .byte 0xFF :: [] ∧
      step (given (framed 7 0 1 2 3 4 5) [.byte 0xFF]) = .fault .offsetSeven :=
  ⟨rfl, rfl, fault_of_faultIs (by decide +kernel)⟩

/-- The bounds of the offset's range. -/
theorem witness_FramerIsTotalAndClosed :
    ((given s0 [.byte 0x12]).framer.offset.toNat ≤ 6 ∧ (given s0 [.byte 0x12]).agenda = .byte 0x12 :: []) ∧
      ((given (framed 6 9 1 2 3 4 5) [.byte 9]).framer.offset.toNat ≤ 6 ∧
        (given (framed 6 9 1 2 3 4 5) [.byte 9]).agenda = .byte 9 :: []) := by decide +kernel

/-- A byte for each clause: 0xFE, 0xFF, and another. -/
theorem witness_SumFFIsConfirmedByFEOnly :
    ((given (framed 6 0xFF 0x40 0xBF 0 0 0) [.byte 0xFE]).framer.offset = 6 ∧
        (given (framed 6 0xFF 0x40 0xBF 0 0 0) [.byte 0xFE]).framer.csum = 0xFF ∧
        (given (framed 6 0xFF 0x40 0xBF 0 0 0) [.byte 0xFE]).agenda = .byte 0xFE :: []) ∧
      (given (framed 6 0xFF 0x40 0xBF 0 0 0) [.byte 0xFF]).agenda = .byte 0xFF :: [] ∧
      ((given (framed 6 0xFF 0x40 0xBF 0 0 0) [.byte 0x00]).agenda = .byte 0x00 :: [] ∧ (0x00 : Byte) ≠ 0xFE ∧
        (0x00 : Byte) ≠ 0xFF) := by decide +kernel

theorem witness_DecodeOfEncodeIsTheOperation :
    ((Instr.decLeftMove 0x30).wellFormed && (Instr.pkt 0x10 0 0 0 0 0x10).wellFormed &&
      (Instr.smooth 0 1 (3 / 10)).wellFormed && (Instr.updLift (-1)).wellFormed && Instr.iter.wellFormed) =
      true := by decide +kernel

theorem witness_DecodedOperationsAreWellFormed : decode (.rx 3) [0xF0] = .ok (.rxPay3 0xF0) := rfl

theorem witness_EncodeOfDecodeKeepsTheBytes :
    (Source.flags ≠ .lockBit ∧ decode .flags [0x5A] = .ok (.ext 0 1 0b01 0b10 1 0)) ∧
      (Source.rx 3 ≠ .lockBit ∧ decode (.rx 3) [0xF0] = .ok (.rxPay3 0xF0)) :=
  ⟨⟨by decide +kernel, rfl⟩, by decide +kernel, rfl⟩

/-- A state inside a packet that meets the invariant: two payload bytes have been taken. -/
def midPacket : State := given (framed 3 0x30 0x10 0x20 3 4 5) [.byte 0xF0]

theorem midPacket_inv : midPacket.Inv where
  offsetLegal := show midPacket.framer.offset.toNat ≤ 6 by decide +kernel
  poolsCarried := by unfold PoolsCarried; decide +kernel
  checksumRuns := show midPacket.framer.csum = midPacket.framer.pExt + midPacket.framer.pChin by decide +kernel
  extendedCarried := by decide +kernel
  decodeConsistent := by unfold DecodeConsistent; decide +kernel
  levelsInRange := by unfold LevelsInRange; decide +kernel

theorem witness_StepKeepsTheInvariant : midPacket.Inv ∧ ∃ t, step midPacket = .next t :=
  ⟨midPacket_inv, exists_next (by decide +kernel)⟩

theorem witness_StepKeepsTheJointsInRange : JointsInRange s0 ∧ ∃ t, step s0 = .next t :=
  ⟨by unfold JointsInRange; decide +kernel, exists_next (by decide +kernel)⟩

/-- Each of the two faults is met. -/
theorem witness_StepStopsOnUnreachableStatesOnly :
    step (given (framed 7 0 1 2 3 4 5) [.byte 0x00]) = .fault .offsetSeven ∧
      step (driven 2 0 0) = .fault .levelOutOfRange :=
  ⟨fault_of_faultIs (by decide +kernel), fault_of_faultIs (by decide +kernel)⟩

theorem witness_NoOperationChangesTheParameters : ∃ t, exec (.pkt 0x10 0 0 0 0 0x10) s0 = .next t :=
  exists_next (by decide +kernel)

theorem witness_OutputsChangeInTheControlCycleOnly : ∃ t, exec (.updChin 1600) s0 = .next t ∧ t.out ≠ s0.out := by
  refine ⟨_, rfl, ?_⟩
  decide +kernel

/-- A change for each of the three causes: a checksum byte, a packet, reset. -/
theorem witness_CommandStateChangesAtTheCheckOnly :
    (∃ t, step (given (framed 6 0x10 0x10 0 0 0 0) [.byte 0x10]) = .next t ∧ t.cmd ≠ s0.cmd) ∧
      (∃ t, step (given s0 [.packet 0x10 0 0 0 0 0x10]) = .next t ∧ t.cmd ≠ s0.cmd) ∧
      ∃ t, step { s0 with cmd := cmd0, agenda := [.rst] } = .next t ∧ t.cmd ≠ cmd0 :=
  ⟨⟨_, rfl, by decide +kernel⟩, ⟨_, rfl, by decide +kernel⟩, _, rfl, by decide +kernel⟩

/-- One event of each context. -/
theorem witness_ContextsKeepToTheirGroups :
    (∃ t, step (given s0 [.byte 0xFF]) = .next t) ∧ (∃ t, step (given s0 [.noByte]) = .next t) ∧
      (∃ t, step (given s0 [.packet 0x10 0 0 0 0 0x10]) = .next t) ∧ ∃ t, step (given s0 [.tick]) = .next t :=
  ⟨exists_next (by decide +kernel), exists_next (by decide +kernel), exists_next (by decide +kernel), exists_next (by decide +kernel)⟩

/-- Two states that differ in the checksum and in every pool register. -/
theorem witness_AssemblyAtOffsetZeroIsUnobservable :
    s0.framer.offset = 0 ∧ SameButAssembly s0 (framed 0 9 1 2 3 4 5) ∧ s0 ≠ framed 0 9 1 2 3 4 5 :=
  ⟨rfl, ⟨rfl, rfl, rfl, rfl, rfl, rfl, rfl, rfl⟩, by decide +kernel⟩

theorem witness_PacketLineIsItsSevenBytes :
    PacketWellFormed 0x10 0 0 0 0 0x10 ∧
      (given s0 [.packet 0x10 0 0 0 0 0x10, .tick]).agenda = .packet 0x10 0 0 0 0 0x10 :: [.tick] :=
  ⟨witness_PktIsTestedOnItsOwnPayload.1.1, rfl⟩

/-- The script of V8.1: an iteration inside the packet. -/
def v81 : List Line :=
  [.byte 0xFF, .byte 0x10, .byte 0x00, .byte 0x00, .tick, .byte 0x00, .byte 0x00, .byte 0x10]

theorem v81_ordinary : ∀ l ∈ v81, Ordinary l := by
  intro l hl
  simp only [v81, List.mem_cons, List.not_mem_nil, or_false] at hl
  rcases hl with rfl | rfl | rfl | rfl | rfl | rfl | rfl | rfl <;> trivial

/-- A well-formed packet whose checksum byte is wrong, with an iteration and an empty notification inside it. -/
def badPacket : List Line :=
  [.byte 0xFF, .byte 0x10, .noByte, .byte 0x00, .byte 0x00, .tick, .byte 0x00, .byte 0x00, .byte 0x11]

theorem badPacket_ordinary : ∀ l ∈ badPacket, Ordinary l := by
  intro l hl
  simp only [badPacket, List.mem_cons, List.not_mem_nil, or_false] at hl
  rcases hl with rfl | rfl | rfl | rfl | rfl | rfl | rfl | rfl | rfl <;> trivial

/-- For the valid clause a packet with an iteration inside it, for the other one a packet with a wrong checksum byte,
each received from a state inside another packet. -/
theorem witness_PacketCommitsUnderAnyInterleaving :
    ((given (framed 4 9 1 2 3 4 5) (v81 ++ [.tick])).framer.offset ≠ 7 ∧
      LevelsInRange (given (framed 4 9 1 2 3 4 5) (v81 ++ [.tick])).out ∧
      (given (framed 4 9 1 2 3 4 5) (v81 ++ [.tick])).agenda = v81 ++ [.tick] ∧ (∀ l ∈ v81, Ordinary l) ∧
      bytesOf v81 = [0xFF, 0x10, 0, 0, 0, 0, 0x10] ∧ PacketWellFormed 0x10 0 0 0 0 0x10 ∧
      PacketValid 0x10 0 0 0 0 0x10) ∧
    ((given (framed 6 9 1 2 3 4 5) (badPacket ++ [])).framer.offset ≠ 7 ∧
      LevelsInRange (given (framed 6 9 1 2 3 4 5) (badPacket ++ [])).out ∧
      (given (framed 6 9 1 2 3 4 5) (badPacket ++ [])).agenda = badPacket ++ [] ∧ (∀ l ∈ badPacket, Ordinary l) ∧
      bytesOf badPacket = [0xFF, 0x10, 0, 0, 0, 0, 0x11] ∧ PacketWellFormed 0x10 0 0 0 0 0x11 ∧
      ¬PacketValid 0x10 0 0 0 0 0x11) :=
  have w := witness_PktIsTestedOnItsOwnPayload
  ⟨⟨by decide +kernel, levels_s0, rfl, v81_ordinary, by decide +kernel, w.1.1, w.1.2⟩,
    by decide +kernel, levels_s0, rfl, badPacket_ordinary, by decide +kernel, w.2.2.1.1, w.2.2.1.2⟩

/-- A payload byte, the sync byte at offset 6, and a checksum byte that does not fit. -/
theorem witness_ByteAndIterationCommuteUnlessCommit :
    ((framed 3 0x30 1 2 3 4 5).framer.offset ≠ 7 ∧ LevelsInRange (framed 3 0x30 1 2 3 4 5).out ∧
        ¬((framed 3 0x30 1 2 3 4 5).framer.offset = 6 ∧ (0xF0 : Byte) ≠ 0xFF ∧
          ((framed 3 0x30 1 2 3 4 5).framer.csum = (0xF0 : Byte) ∨
            ((framed 3 0x30 1 2 3 4 5).framer.csum = 0xFF ∧ (0xF0 : Byte) = 0xFE)))) ∧
      ¬((framed 6 0x10 1 2 3 4 5).framer.offset = 6 ∧ (0x11 : Byte) ≠ 0xFF ∧
          ((framed 6 0x10 1 2 3 4 5).framer.csum = (0x11 : Byte) ∨
            ((framed 6 0x10 1 2 3 4 5).framer.csum = 0xFF ∧ (0x11 : Byte) = 0xFE))) :=
  ⟨⟨by decide +kernel, levels_s0, by decide +kernel⟩, by decide +kernel⟩

/-- A command that drives every output, and no event to come. -/
theorem witness_SilenceHoldsTheCommand :
    ({ s0 with cmd := { cmd0 with leftTargetSpeed := .pos, rightTargetSpeed := .neg } } : State).agenda = [] ∧
      LevelsInRange ({ s0 with cmd := { cmd0 with leftTargetSpeed := .pos, rightTargetSpeed := .neg } } : State).out :=
  ⟨rfl, levels_s0⟩

end Sys2Proof.Tests
end

section
/-!
PROOFS. What one step does for each kind of line at the head of the agenda (00_scope.md R13): `fetch` takes the line,
`decode` names its operation, and `step_of_fetch` joins the two.
-/

namespace Sys2Proof.Machine

/-- With no line left the foreground runs freely (20_memory.md R76). -/
theorem step_nil {s : State} (h : s.agenda = []) : step s = exec .iter s :=
  step_of_fetch (fetch_nil h) rfl

theorem step_tick {s : State} {rest : List Line} (h : s.agenda = .tick :: rest) :
    step s = exec .iter (s.withAgenda rest) :=
  step_of_fetch (fetch_tick h) rfl

theorem step_noByte {s : State} {rest : List Line} (h : s.agenda = .noByte :: rest) :
    step s = exec .rxNone (s.withAgenda rest) :=
  step_of_fetch (fetch_noByte h) rfl

theorem step_rst {s : State} {rest : List Line} (h : s.agenda = .rst :: rest) :
    step s = exec .rst (s.withAgenda rest) :=
  step_of_fetch (fetch_rst h) rfl

/-- The operation that a byte runs is the row of the offset before the step (30_encoding.md R100). -/
theorem step_byte_of_decode {s : State} {b : Byte} {i : Instr} {rest : List Line} (h : s.agenda = .byte b :: rest)
    (hd : decode (.rx s.framer.offset) [b] = .ok i) : step s = exec i (s.withAgenda rest) :=
  step_of_fetch (fetch_byte h) hd

/-- A well-formed packet passes the decoder's test for the sync byte among its operands (30_encoding.md R102, R108). -/
theorem PacketWellFormed.contains_syncByte {e c y x z k : Byte} (hw : PacketWellFormed e c y x z k) :
    [e, c, y, x, z, k].contains syncByte = false := by
  obtain ⟨he, hc, hy, hx, hz, hk⟩ := hw
  have hsync : syncByte ∉ [e, c, y, x, z, k] := by
    simpa [syncByte, eq_comm] using ⟨he, hc, hy, hx, hz, hk⟩
  simpa using hsync

theorem step_packet {s : State} {e c y x z k : Byte} {rest : List Line}
    (h : s.agenda = .packet e c y x z k :: rest) (hw : PacketWellFormed e c y x z k) :
    step s = exec (.pkt e c y x z k) (s.withAgenda rest) :=
  step_of_fetch (fetch_packet h hw.contains_syncByte) (decodeSeven_packet hw.contains_syncByte)

/-- Settles O35: one step lemma for each kind of line. -/
theorem stepRunsTheDecodedOperation : Obligations.StepRunsTheDecodedOperation := by
  intro s rest
  refine ⟨step_nil, step_tick, step_noByte, step_rst, ?byte, ?packet⟩
  case byte =>
    intro b i h hd
    exact step_byte_of_decode h hd
  case packet =>
    intro e c y x z k h hw
    exact step_packet h hw

end Sys2Proof.Machine
end

section
/-!
PROOFS. Frames: which groups of the state (10_state.md R20) a byte, an iteration and each operation can write, said once
for all events.
-/

namespace Sys2Proof.Machine

/-! ### The handler's events -/

/-- A byte writes the framer and Command State alone (60_exceptions.md R243). -/
theorem rx_frame {b : Byte} {s t : State} (h : rx b s = .next t) :
    t = { s with framer := t.framer, cmd := t.cmd } := by
  rcases rx_eq_next h with ⟨_, _, rfl⟩ | ⟨_, i, _, _, _, rfl⟩ | ⟨_, _, rfl⟩
  case inl => rfl
  case inr.inl => rfl
  case inr.inr => simp [checkByte_eq]

/-- What every byte keeps, a sequence of bytes keeps. -/
theorem rxAll_keeps {P : State → Prop} (hrx : ∀ {b s t}, P s → rx b s = .next t → P t) :
    ∀ {bs : List Byte} {s t : State}, P s → rxAll bs s = .next t → P t
  | [], _, _, hs, h => by cases h; exact hs
  | _ :: _, _, _, hs, h => by
    obtain ⟨u, hb, hrest⟩ := andThen_eq_next h
    exact rxAll_keeps hrx (hrx hs hb) hrest

/-- A sequence of bytes, such as a packet's, writes the framer and Command State alone. -/
theorem rxAll_frame {bs : List Byte} {s t : State} (h : rxAll bs s = .next t) :
    t = { s with framer := t.framer, cmd := t.cmd } := by
  refine rxAll_keeps (P := fun u => u = { s with framer := u.framer, cmd := u.cmd }) ?_ rfl h
  intro b u v hu hb
  rw [rx_frame hb, hu]

@[simp] theorem checkByte_cfg (b : Byte) (s : State) : (checkByte b s).cfg = s.cfg := by rw [checkByte_eq]
@[simp] theorem checkByte_out (b : Byte) (s : State) : (checkByte b s).out = s.out := by rw [checkByte_eq]

/-! ### The iteration -/

/-- The outputs after an iteration: one smoothing step of each towards its target (43_control_cycle.md R213 to R217). -/
def smoothedOutputs (s : State) : Outputs :=
  { lvlL := smoothNext s.out.lvlL (leftTarget s.cmd) gWheel
    lvlR := smoothNext s.out.lvlR (rightTarget s.cmd) gWheel
    lvlLift := smoothNext s.out.lvlLift (liftTarget s.cmd) gLift
    pwRot := smoothNext s.out.pwRot (rotTarget s.cfg s.cmd) gRot
    pwChin := smoothNext s.out.pwChin (chinTarget s.cfg s.cmd) gChin }

/-- All that an iteration can do: the three new levels were in range, the outputs are smoothed, calls leave. -/
theorem execIter_eq_next {s t : State} (h : execIter s = .next t) :
    LevelsInRange (smoothedOutputs s) ∧ t = { s with out := smoothedOutputs s, calls := t.calls } := by
  obtain ⟨s1, hL, h⟩ := andThen_eq_next h
  obtain ⟨s2, hR, h⟩ := andThen_eq_next h
  obtain ⟨s3, hLift, h⟩ := andThen_eq_next h
  obtain ⟨rangeL, rfl⟩ := driveMotor_eq_next hL
  obtain ⟨rangeR, rfl⟩ := driveMotor_eq_next hR
  obtain ⟨rangeLift, rfl⟩ := driveMotor_eq_next hLift
  cases h
  rw [levelInRange_iff] at rangeL rangeR rangeLift
  refine ⟨⟨rangeL, rangeR, rangeLift⟩, ?_⟩
  apply State.ext_fields <;> simp [smoothedOutputs, storeLevel, storeWidth, readMotor, snapshot]

/-! ### Every operation -/

theorem updateMotor_cfg {m : Motor} {gain target : NumQ} {s t : State} (h : updateMotor m gain target s = .next t) :
    t.cfg = s.cfg := by
  obtain ⟨_, rfl⟩ := driveMotor_eq_next h
  rfl

theorem execSmooth_frame {c v g : NumQ} {s t : State} (h : execSmooth c v g s = .next t) :
    t = { s with result := t.result } := by
  unfold execSmooth at h
  split at h
  · cases h; rfl
  · cases h

theorem execRst_eq (s : State) : execRst s = .next
    { s with
      framer := resetFramer, cmd := resetCommand s.cfg, out := resetOutputs s.cfg, dev := resetDevices s.cfg
      calls := s.calls ++ setupCalls s.cfg } := by
  rw [execRst, setUp_eq, resetRegisters_eq]

/-- Settles O52: every operation is a named update of other groups than the parameters, or one of the shared operations
whose frame is known. -/
theorem noOperationChangesTheParameters : Obligations.NoOperationChangesTheParameters := by
  intro i s t h
  cases i with
  | pkt => rw [rxAll_frame h]
  | rxCheck b => cases h; exact checkByte_cfg b s
  | smooth => rw [execSmooth_frame h]
  | updLeft | updRight | updLift => exact updateMotor_cfg h
  | iter => rw [(execIter_eq_next h).2]
  | rst => rw [exec, execRst_eq] at h; cases h; rfl
  | _ => cases h; rfl

/-- Settles O53: outside the control cycle and reset, every operation leaves the outputs as they are. -/
theorem outputsChangeInTheControlCycleOnly : Obligations.OutputsChangeInTheControlCycleOnly := by
  intro i s t h hout
  cases i with
  | iter | rst | updLeft | updRight | updLift | updRot | updChin => simp
  | pkt => exact absurd (by rw [rxAll_frame h]) hout
  | rxCheck b => cases h; exact absurd (checkByte_out b s) hout
  | smooth => exact absurd (by rw [execSmooth_frame h]) hout
  | _ => cases h; exact absurd rfl hout

end Sys2Proof.Machine
end

section
/-!
PROOFS. The events of a step (20_memory.md R70) and, once for all invariants, that what the three kinds of event keep
every step keeps.
-/

namespace Sys2Proof.Machine

theorem withAgenda_of_agenda {s : State} {ls : List Line} (h : s.agenda = ls) : s.withAgenda ls = s := by
  subst h; rfl

/-- One byte is a sequence of one. -/
theorem rxAll_singleton (b : Byte) (s : State) : rxAll [b] s = rx b s := by
  show andThen (rx b s) (rxAll []) = rx b s
  cases rx b s <;> rfl

/-- The head of the agenda alone says which event the next step is: an iteration, a reset, or bytes arriving (none for a
`NONE` line, one for a `BYTE` line or a cut packet, seven for a packet). -/
theorem step_of_agenda (ls : List Line) : ∃ rest,
    (∀ s, s.agenda = ls → step s = execIter (s.withAgenda rest)) ∨
    (∀ s, s.agenda = ls → step s = execRst (s.withAgenda rest)) ∨
    ∃ bs, ∀ s, s.agenda = ls → step s = rxAll bs (s.withAgenda rest) := by
  match ls with
  | [] => exact ⟨[], .inl fun s h => by rw [step_nil h, withAgenda_of_agenda h, exec]⟩
  | .tick :: rest => exact ⟨rest, .inl fun _ h => step_tick h⟩
  | .rst :: rest => exact ⟨rest, .inr (.inl fun _ h => step_rst h)⟩
  | .noByte :: rest => exact ⟨rest, .inr (.inr ⟨[], fun _ h => step_noByte h⟩)⟩
  | .byte b :: rest => exact ⟨rest, .inr (.inr ⟨[b], fun s h => by rw [step_byte h, rxAll_singleton]⟩)⟩
  | .packet e c y x z k :: rest =>
    by_cases hw : [e, c, y, x, z, k].contains syncByte
    case neg =>
      simp only [Bool.not_eq_true] at hw
      exact ⟨rest, .inr (.inr ⟨packetBytes e c y x z k, fun s h =>
        step_of_fetch (fetch_packet h hw) (decodeSeven_packet hw)⟩)⟩
    case pos =>
      refine ⟨[e, c, y, x, z, k].map Line.byte ++ rest, .inr (.inr ⟨[syncByte], fun s h => ?_⟩)⟩
      have hbytes : step s = step (s.withAgenda (.byte syncByte :: ([e, c, y, x, z, k].map Line.byte ++ rest))) := by
        rw [step, fetch_packet_cut h hw, step, fetch_byte rfl]
        rfl
      rw [hbytes, step_byte rfl, rxAll_singleton]
      rfl

/-- An invariant that does not read the agenda, kept by bytes, iterations and resets, is kept by every step. -/
theorem step_keeps {P : State → Prop} (hagenda : ∀ {s ls}, P s → P (s.withAgenda ls))
    (hrx : ∀ {b s t}, P s → rx b s = .next t → P t) (hiter : ∀ {s t}, P s → execIter s = .next t → P t)
    (hrst : ∀ {s t}, P s → execRst s = .next t → P t) {s t : State} (hs : P s) (h : step s = .next t) : P t := by
  obtain ⟨rest, hstep⟩ := step_of_agenda s.agenda
  rcases hstep with iter | rst | ⟨bs, bytes⟩
  · rw [iter s rfl] at h
    exact hiter (hagenda hs) h
  · rw [rst s rfl] at h
    exact hrst (hagenda hs) h
  · rw [bytes s rfl] at h
    exact rxAll_keeps hrx (hagenda hs) h

end Sys2Proof.Machine
end

section
/-!
PROOFS. The invariant of the reachable states (10_state.md R27, R41; 40_framer.md R144, R146, R147): each kind of event
keeps it.
-/

namespace Sys2Proof.Machine

/-! ### Bytes -/

theorem commit_cmd_extended (s : State) : (commit s).cmd.extended = s.framer.pExt := by
  unfold commit; split <;> rfl

/-- Both arms of a commit write the derived registers with `extended` (41_command_decode.md R160). -/
theorem commit_decodeConsistent (s : State) : DecodeConsistent (commit s).cmd := by
  unfold commit; split <;> exact ⟨rfl, rfl, rfl⟩

theorem State.Inv.openFrame {s : State} (hs : s.Inv) : (openFrame s).Inv where
  offsetLegal := by simp [OffsetLegal]
  poolsCarried := hs.poolsCarried
  checksumRuns := by simp [ChecksumRuns]
  extendedCarried := hs.extendedCarried
  decodeConsistent := hs.decodeConsistent
  levelsInRange := hs.levelsInRange

theorem poolsCarried_setPool {f : Framer} {b : Byte} (i : Nat) (hf : PoolsCarried f) (hb : b ≠ 0xFF) :
    PoolsCarried (setPool f i b) := by
  obtain ⟨hExt, hChin, hRotY, hRotX, hRotZ⟩ := hf
  unfold setPool
  split
  · exact ⟨hb, hChin, hRotY, hRotX, hRotZ⟩
  · exact ⟨hExt, hb, hRotY, hRotX, hRotZ⟩
  · exact ⟨hExt, hChin, hb, hRotX, hRotZ⟩
  · exact ⟨hExt, hChin, hRotY, hb, hRotZ⟩
  · exact ⟨hExt, hChin, hRotY, hRotX, hb⟩
  · exact ⟨hExt, hChin, hRotY, hRotX, hRotZ⟩

/-- A payload byte enters the sum as it enters its pool register (40_framer.md R144). -/
theorem checksumRuns_takePayload {i : Nat} (b : Byte) {s : State} (h1 : 1 ≤ i) (h5 : i ≤ 5)
    (hi : s.framer.offset.toNat = i) (hs : ChecksumRuns s.framer) : ChecksumRuns (takePayload i b s).framer := by
  unfold ChecksumRuns at hs
  interval_cases i <;> simp_all [ChecksumRuns, setPool]

theorem State.Inv.takePayload {i : Nat} {b : Byte} {s : State} (hs : s.Inv) (hb : b ≠ 0xFF) (h1 : 1 ≤ i) (h5 : i ≤ 5)
    (hi : s.framer.offset.toNat = i) : (takePayload i b s).Inv where
  offsetLegal := by
    simp only [OffsetLegal, takePayload_framer, BitVec.toNat_ofNat]
    omega
  poolsCarried := poolsCarried_setPool i hs.poolsCarried hb
  checksumRuns := checksumRuns_takePayload b h1 h5 hi hs.checksumRuns
  extendedCarried := hs.extendedCarried
  decodeConsistent := hs.decodeConsistent
  levelsInRange := hs.levelsInRange

theorem State.Inv.checkByte {s : State} (hs : s.Inv) (b : Byte) : (checkByte b s).Inv := by
  rw [checkByte_eq]
  refine ⟨Nat.zero_le 6, hs.poolsCarried, trivial, ?extended, ?decode, hs.levelsInRange⟩
  case extended =>
    dsimp only
    split
    · rw [commit_cmd_extended]; exact hs.poolsCarried.1
    · exact hs.extendedCarried
  case decode =>
    dsimp only
    split
    · exact commit_decodeConsistent s
    · exact hs.decodeConsistent

theorem State.Inv.rx {b : Byte} {s t : State} (hs : s.Inv) (h : rx b s = .next t) : t.Inv := by
  rcases rx_eq_next h with ⟨_, _, rfl⟩ | ⟨hb, i, h1, h5, hi, rfl⟩ | ⟨_, _, rfl⟩
  · exact hs.openFrame
  · exact hs.takePayload hb h1 h5 hi
  · exact hs.checkByte b

/-! ### Iterations and resets -/

/-- An iteration writes outputs only, and it ends only if the levels it drives are in range (93_implementation_defined.md
U12). -/
theorem State.Inv.execIter {s t : State} (hs : s.Inv) (h : execIter s = .next t) : t.Inv := by
  obtain ⟨hrange, ht⟩ := execIter_eq_next h
  rw [ht]
  exact ⟨hs.offsetLegal, hs.poolsCarried, hs.checksumRuns, hs.extendedCarried, hs.decodeConsistent, hrange⟩

/-- The reset values meet the invariant (10_state.md R39, assumption log 4), whatever the parameters are. -/
theorem State.inv_of_reset_registers {s : State} {p : Config} (hf : s.framer = resetFramer)
    (hc : s.cmd = resetCommand p) (ho : s.out = resetOutputs p) : s.Inv where
  offsetLegal := by rw [hf]; simp [OffsetLegal, resetFramer]
  poolsCarried := by rw [hf]; simp [PoolsCarried, resetFramer]
  checksumRuns := by rw [hf]; trivial
  extendedCarried := by rw [hc]; simp [resetCommand]
  decodeConsistent := by
    rw [hc]
    simp only [DecodeConsistent, resetCommand]
    decide
  levelsInRange := by rw [ho]; simp [LevelsInRange, resetOutputs]

theorem State.inv_of_execRst {s t : State} (h : execRst s = .next t) : t.Inv := by
  rw [execRst_eq] at h
  cases h
  exact State.inv_of_reset_registers rfl rfl rfl

/-- Settles O46: bytes, iterations and resets each keep the invariant. -/
theorem stepKeepsTheInvariant : Obligations.StepKeepsTheInvariant := by
  intro s t hs h
  have hagenda : ∀ {u : State} {ls : List Line}, u.Inv → (u.withAgenda ls).Inv := fun hu =>
    ⟨hu.offsetLegal, hu.poolsCarried, hu.checksumRuns, hu.extendedCarried, hu.decodeConsistent, hu.levelsInRange⟩
  exact step_keeps hagenda State.Inv.rx State.Inv.execIter (fun _ => State.inv_of_execRst) hs h

/-- Settles O33: the state after reset is built from the table's values. -/
theorem resetStateHoldsTheTable : Obligations.ResetStateHoldsTheTable :=
  ⟨rfl, rfl, rfl, rfl⟩

/-- Settles O47: the registers of `State.reset` are the reset values. -/
theorem resetHasTheInvariant : Obligations.ResetHasTheInvariant :=
  State.inv_of_reset_registers rfl rfl rfl

end Sys2Proof.Machine
end

section
/-!
PROOFS. The joints stay between their neutral width and their targets (10_state.md R41): a smoothing step stays between
its ends, and the targets lie in the range whatever the parameters are (42_smoothing.md R190).
-/

namespace Sys2Proof.Machine

/-- A smoothing step does not leave an interval that holds both of its ends (42_smoothing.md R183 (d)). -/
theorem smoothNext_mem_Icc {c t g lo hi : NumQ} (hg : 0 ≤ g ∧ g ≤ 1) (hc : lo ≤ c ∧ c ≤ hi) (ht : lo ≤ t ∧ t ≤ hi) :
    lo ≤ smoothNext c t g ∧ smoothNext c t g ≤ hi := by
  have hmem : (1 - g) • c + g • t ∈ Set.Icc lo hi :=
    convex_Icc lo hi hc ht (sub_nonneg.2 hg.2) hg.1 (sub_add_cancel 1 g)
  rw [smoothNext_mean]
  exact hmem

/-- The inverted clamp leaves one of the two bounds (42_smoothing.md R188). -/
theorem rotTarget_eq (p : Config) (snap : CommandState) :
    rotTarget p snap = p.rotMin ∨ rotTarget p snap = p.rotMax := by
  have hcount := countNum_nonneg snap.rotX
  simp only [rotTarget]
  split
  case isTrue => exact .inr rfl
  case isFalse h => exact .inl (by linarith)

theorem rotTarget_range (p : Config) (snap : CommandState) :
    min p.rotMin p.rotMax ≤ rotTarget p snap ∧ rotTarget p snap ≤ max p.rotMin p.rotMax := by
  rcases rotTarget_eq p snap with h | h <;> rw [h] <;> simp

theorem chinTarget_eq_min (p : Config) (snap : CommandState) :
    chinTarget p snap = min (p.chinMin + countNum snap.chin * 3) p.chinMax := by
  rw [min_comm, min_def_lt]
  rfl

/-- The count is at most 255, so three times it is at most 765. -/
theorem chinTarget_range (p : Config) (snap : CommandState) :
    min p.chinMin p.chinMax ≤ chinTarget p snap ∧ chinTarget p snap ≤ min (p.chinMin + 765) p.chinMax := by
  have hlow := countNum_nonneg snap.chin
  have hhigh := countNum_le snap.chin
  rw [chinTarget_eq_min]
  exact ⟨min_le_min_right _ (by linarith), min_le_min_right _ (by linarith)⟩

/-- The range is a matter of the parameters and the outputs alone. -/
theorem JointsInRange.congr {s t : State} (hcfg : t.cfg = s.cfg) (hout : t.out = s.out) (hs : JointsInRange s) :
    JointsInRange t := by
  unfold JointsInRange
  rw [hcfg, hout]
  exact hs

theorem JointsInRange.rx {b : Byte} {s t : State} (hs : JointsInRange s) (h : rx b s = .next t) : JointsInRange t := by
  have ht := rx_frame h
  exact hs.congr (by rw [ht]) (by rw [ht])

theorem JointsInRange.execIter {s t : State} (hs : JointsInRange s) (h : execIter s = .next t) : JointsInRange t := by
  obtain ⟨hrot, hchin⟩ := hs
  obtain ⟨hrotLow, hrotHigh⟩ := rotTarget_range s.cfg s.cmd
  obtain ⟨hchinLow, hchinHigh⟩ := chinTarget_range s.cfg s.cmd
  rw [(execIter_eq_next h).2]
  refine ⟨smoothNext_mem_Icc ?rotGain hrot ?rotTarget, smoothNext_mem_Icc ?chinGain hchin ?chinTarget⟩
  case rotGain => norm_num [gRot]
  case chinGain => norm_num [gChin]
  case rotTarget => exact ⟨min_le_of_right_le hrotLow, le_max_of_le_right hrotHigh⟩
  case chinTarget => exact ⟨min_le_of_right_le hchinLow, le_max_of_le_right hchinHigh⟩

/-- At reset both joints stand at their neutral widths (10_state.md R39). -/
theorem jointsInRange_of_reset_outputs {s : State} (ho : s.out = resetOutputs s.cfg) : JointsInRange s := by
  unfold JointsInRange
  rw [ho]
  exact ⟨⟨min_le_left _ _, le_max_left _ _⟩, min_le_left _ _, le_max_left _ _⟩

theorem jointsInRange_of_execRst {s t : State} (h : execRst s = .next t) : JointsInRange t := by
  rw [execRst_eq] at h
  cases h
  exact jointsInRange_of_reset_outputs rfl

/-- Settles O48: bytes keep parameters and outputs, an iteration smooths towards a target in the range, a reset goes to
the neutral widths. -/
theorem stepKeepsTheJointsInRange : Obligations.StepKeepsTheJointsInRange := by
  intro s t hs h
  exact step_keeps (P := JointsInRange) (JointsInRange.congr rfl rfl) JointsInRange.rx JointsInRange.execIter
    (fun _ => jointsInRange_of_execRst) hs h

/-- Settles O49: the outputs of `State.reset` are the reset values, whatever the opaque parameters are. -/
theorem resetHasTheJointsInRange : Obligations.ResetHasTheJointsInRange :=
  jointsInRange_of_reset_outputs rfl

end Sys2Proof.Machine
end

section
/-!
PROOFS. The updates of the control cycle outside the range of the levels (93_implementation_defined.md U12).
-/

namespace Sys2Proof.Machine

theorem driveMotor_of_not_range {m : Motor} {v : NumQ} (s : State) (h : ¬(-1 ≤ v ∧ v ≤ 1)) :
    driveMotor m v s = .fault .levelOutOfRange := by
  unfold driveMotor
  rw [if_neg (mt (levelInRange_iff v).1 h)]

/-- Settles O27: an update drives the smoothing step of the level it reads, and a drive outside the range faults. -/
theorem updatesOutsideTheRangeFault : Obligations.UpdatesOutsideTheRangeFault := by
  intro t s
  exact ⟨driveMotor_of_not_range s, driveMotor_of_not_range s, driveMotor_of_not_range s⟩

end Sys2Proof.Machine
end

section
/-!
PROOFS. Two runs that differ in what `csum` and the pools hold at offset 0 (10_state.md R40, U7). Such a difference can
outlive a step, so the relation between the runs says, for each offset, which of these registers must agree: the
checksum once a frame is open, a pool register once its position is past. Every event keeps that relation, and at the
one place where the registers are read (offset 6) the two framers are equal.
-/

namespace Sys2Proof.Machine

/-- Two answers of the same kind, with related states or the same stop. -/
inductive AnswersRelated (R : State → State → Prop) : Answer → Answer → Prop where
  | next {s t : State} (h : R s t) : AnswersRelated R (.next s) (.next t)
  | fault (r : Fault) : AnswersRelated R (.fault r) (.fault r)
  | refused (r : Refusal) : AnswersRelated R (.refused r) (.refused r)

theorem AnswersRelated.andThen {R : State → State → Prop} {a b : Answer} {f g : State → Answer}
    (h : AnswersRelated R a b) (hfg : ∀ {s t}, R s t → AnswersRelated R (f s) (g t)) :
    AnswersRelated R (andThen a f) (andThen b g) := by
  cases h with
  | next hst => exact hfg hst
  | fault r => exact .fault r
  | refused r => exact .refused r

theorem run_succ_of_refused {s : State} {r : Refusal} (n : Nat) (h : step s = .refused r) :
    Host.Core.run Sys2Proof.core (n + 1) s = .refused r := by
  have h' : Sys2Proof.core.step s = .refused r := h
  simp [Host.Core.run, h']

/-- A run is its first step and then the run that is left. -/
theorem run_succ (n : Nat) (s : State) :
    Host.Core.run Sys2Proof.core (n + 1) s = andThen (step s) (Host.Core.run Sys2Proof.core n) := by
  cases hs : step s with
  | next u => exact run_succ_of_next n hs
  | fault r => exact run_succ_of_fault n hs
  | refused r => exact run_succ_of_refused n hs

/-- A relation that is kept by steps is kept by runs. -/
theorem AnswersRelated.run {R : State → State → Prop}
    (hstep : ∀ {s t}, R s t → AnswersRelated R (step s) (step t)) (n : Nat) {s t : State} (h : R s t) :
    AnswersRelated R (Host.Core.run Sys2Proof.core n s) (Host.Core.run Sys2Proof.core n t) := by
  induction n generalizing s t with
  | zero => exact .next h
  | succ n ih =>
    rw [run_succ, run_succ]
    exact (hstep h).andThen ih

/-- The framers agree in all that a byte can still bring to light: `csum` inside a frame, and the pool registers of the
positions that are past. -/
structure FramersAgree (f g : Framer) : Prop where
  offset : f.offset = g.offset
  csum : 1 ≤ f.offset.toNat → f.csum = g.csum
  pExt : 2 ≤ f.offset.toNat → f.pExt = g.pExt
  pChin : 3 ≤ f.offset.toNat → f.pChin = g.pChin
  pRotY : 4 ≤ f.offset.toNat → f.pRotY = g.pRotY
  pRotX : 5 ≤ f.offset.toNat → f.pRotX = g.pRotX
  pRotZ : 6 ≤ f.offset.toNat → f.pRotZ = g.pRotZ

/-- The relation between two runs: equal outside the framer, and framers that agree. -/
structure SameOutside (s t : State) : Prop where
  cfg : s.cfg = t.cfg
  framer : FramersAgree s.framer t.framer
  cmd : s.cmd = t.cmd
  out : s.out = t.out
  dev : s.dev = t.dev
  calls : s.calls = t.calls
  result : s.result = t.result
  agenda : s.agenda = t.agenda

/-! ### Bytes -/

theorem FramersAgree.refl (f : Framer) : FramersAgree f f := by
  constructor <;> simp

/-- At offset 0 agreement asks for nothing but the offset. -/
theorem FramersAgree.of_offset_zero {f g : Framer} (hf : f.offset = 0) (h : f.offset = g.offset) :
    FramersAgree f g := by
  constructor <;> simp_all

theorem FramersAgree.openFrame {f g : Framer} :
    FramersAgree { f with csum := 0, offset := 1 } { g with csum := 0, offset := 1 } := by
  constructor <;> simp

/-- A payload byte makes its own pool register agree, and the checksum as it did before. -/
theorem FramersAgree.takePayload {i : Nat} (b : Byte) {f g : Framer} (h1 : 1 ≤ i) (h5 : i ≤ 5)
    (hi : f.offset.toNat = i) (h : FramersAgree f g) :
    FramersAgree { setPool f i b with csum := f.csum + b, offset := BitVec.ofNat 3 (i + 1) }
      { setPool g i b with csum := g.csum + b, offset := BitVec.ofNat 3 (i + 1) } := by
  obtain ⟨_, hcsum, hExt, hChin, hRotY, hRotX, hRotZ⟩ := h
  rw [hi] at hcsum hExt hChin hRotY hRotX hRotZ
  interval_cases i <;> constructor <;> simp_all [setPool]

/-- At the checksum position every register has been written inside the frame. -/
theorem FramersAgree.eq_of_offset_six {f g : Framer} (hf : f.offset.toNat = 6) (h : FramersAgree f g) : f = g := by
  obtain ⟨hoffset, hcsum, hExt, hChin, hRotY, hRotX, hRotZ⟩ := h
  cases f; cases g
  simp_all

theorem SameOutside.openFrame {s t : State} (h : SameOutside s t) : SameOutside (openFrame s) (openFrame t) :=
  { h with framer := FramersAgree.openFrame }

theorem SameOutside.takePayload {i : Nat} (b : Byte) {s t : State} (h1 : 1 ≤ i) (h5 : i ≤ 5)
    (hi : s.framer.offset.toNat = i) (h : SameOutside s t) : SameOutside (takePayload i b s) (takePayload i b t) :=
  { h with framer := h.framer.takePayload b h1 h5 hi }

theorem SameOutside.refl (s : State) : SameOutside s s :=
  ⟨rfl, .refl _, rfl, rfl, rfl, rfl, rfl, rfl⟩

theorem SameOutside.eq_of_offset_six {s t : State} (hs : s.framer.offset.toNat = 6) (h : SameOutside s t) : s = t :=
  State.ext_fields h.cfg (h.framer.eq_of_offset_six hs) h.cmd h.out h.dev h.calls h.result h.agenda

theorem SameOutside.rx (b : Byte) {s t : State} (h : SameOutside s t) :
    AnswersRelated SameOutside (rx b s) (rx b t) := by
  have hpayload : ∀ i, 1 ≤ i → i ≤ 5 → s.framer.offset.toNat = i → AnswersRelated SameOutside
      (.next (if b == syncByte then Machine.openFrame s else Machine.takePayload i b s))
      (.next (if b == syncByte then Machine.openFrame t else Machine.takePayload i b t)) := by
    intro i h1 h5 hi
    split
    · exact .next h.openFrame
    · exact .next (h.takePayload b h1 h5 hi)
  unfold Machine.rx
  rw [← h.framer.offset]
  split
  case h_1 => exact .next h.openFrame
  case h_2 hi => exact hpayload 1 (by decide) (by decide) hi
  case h_3 hi => exact hpayload 2 (by decide) (by decide) hi
  case h_4 hi => exact hpayload 3 (by decide) (by decide) hi
  case h_5 hi => exact hpayload 4 (by decide) (by decide) hi
  case h_6 hi => exact hpayload 5 (by decide) (by decide) hi
  case h_7 hi =>
    rw [h.eq_of_offset_six hi]
    exact .next (.refl _)
  case h_8 => exact .fault _

theorem SameOutside.rxAll (bs : List Byte) {s t : State} (h : SameOutside s t) :
    AnswersRelated SameOutside (rxAll bs s) (rxAll bs t) := by
  induction bs generalizing s t with
  | nil => exact .next h
  | cons b rest ih => exact (h.rx b).andThen ih

/-! ### Iterations and resets -/

/-- Writing equal outputs and making equal calls keeps the relation. -/
theorem SameOutside.withOut_emit {s t : State} {o o' : Outputs} (c : Call) (ho : o = o') (h : SameOutside s t) :
    SameOutside ((s.withOut o).emit c) ((t.withOut o').emit c) :=
  { h with out := ho, calls := congrArg (· ++ [c]) h.calls }

theorem SameOutside.updateMotor (m : Motor) (gain target : NumQ) {s t : State} (h : SameOutside s t) :
    AnswersRelated SameOutside (updateMotor m gain target s) (updateMotor m gain target t) := by
  have hread : readMotor m s = readMotor m t := by
    unfold readMotor
    rw [h.out]
  unfold Machine.updateMotor driveMotor
  rw [hread]
  split
  · exact .next (h.withOut_emit _ (by rw [h.out]))
  · exact .fault _

theorem SameOutside.execUpdRot (target : NumQ) {s t : State} (h : SameOutside s t) :
    AnswersRelated SameOutside (execUpdRot target s) (execUpdRot target t) := by
  unfold Machine.execUpdRot
  rw [h.out]
  exact .next (h.withOut_emit _ (by rw [h.out]))

theorem SameOutside.execUpdChin (target : NumQ) {s t : State} (h : SameOutside s t) :
    AnswersRelated SameOutside (execUpdChin target s) (execUpdChin target t) := by
  unfold Machine.execUpdChin
  rw [h.out]
  exact .next (h.withOut_emit _ (by rw [h.out]))

/-- An iteration takes its targets from Command State and the parameters, never from the framer. -/
theorem SameOutside.execIter {s t : State} (h : SameOutside s t) :
    AnswersRelated SameOutside (execIter s) (execIter t) := by
  unfold Machine.execIter snapshot
  rw [h.cmd, h.cfg]
  refine (h.updateMotor _ _ _).andThen fun h1 => ?_
  refine (h1.updateMotor _ _ _).andThen fun h2 => ?_
  refine (h2.updateMotor _ _ _).andThen fun h3 => ?_
  exact (h3.execUpdRot _).andThen fun h4 => h4.execUpdChin _

theorem SameOutside.execRst {s t : State} (h : SameOutside s t) :
    AnswersRelated SameOutside (execRst s) (execRst t) := by
  rw [execRst_eq, execRst_eq, h.cfg, h.calls]
  exact .next ⟨rfl, .refl _, rfl, rfl, rfl, rfl, h.result, h.agenda⟩

/-! ### Steps and runs -/

theorem SameOutside.withAgenda (ls : List Line) {s t : State} (h : SameOutside s t) :
    SameOutside (s.withAgenda ls) (t.withAgenda ls) :=
  { h with agenda := rfl }

/-- The agendas are equal, so both runs perform the same event. -/
theorem SameOutside.step {s t : State} (h : SameOutside s t) : AnswersRelated SameOutside (step s) (step t) := by
  obtain ⟨rest, hstep⟩ := step_of_agenda s.agenda
  rcases hstep with iter | rst | ⟨bs, bytes⟩
  · rw [iter s rfl, iter t h.agenda.symm]
    exact (h.withAgenda rest).execIter
  · rw [rst s rfl, rst t h.agenda.symm]
    exact (h.withAgenda rest).execRst
  · rw [bytes s rfl, bytes t h.agenda.symm]
    exact (h.withAgenda rest).rxAll bs

theorem SameButAssembly.sameOutside {s t : State} (hs : s.framer.offset = 0) (h : SameButAssembly s t) :
    SameOutside s t := by
  obtain ⟨hcfg, hoffset, hcmd, hout, hdev, hcalls, hresult, hagenda⟩ := h
  exact ⟨hcfg, .of_offset_zero hs hoffset, hcmd, hout, hdev, hcalls, hresult, hagenda⟩

theorem AnswersRelated.sameAnswer {a b : Answer} (h : AnswersRelated SameOutside a b) : SameAnswer a b := by
  cases h with
  | next h => exact ⟨h.cfg, h.framer.offset, h.cmd, h.out, h.dev, h.calls, h.result, h.agenda⟩
  | fault r => rfl
  | refused r => rfl

/-- Settles O56: at offset 0 the two states are related, every step keeps the relation, and related answers cannot be
told apart. -/
theorem assemblyAtOffsetZeroIsUnobservable : Obligations.AssemblyAtOffsetZeroIsUnobservable := by
  intro n s t hs h
  exact (AnswersRelated.run SameOutside.step n (h.sameOutside hs)).sameAnswer

end Sys2Proof.Machine
end

section
/-!
PROOFS. A byte and an iteration as functions of the state: the byte writes the framer alone, unless it is the accepted
checksum byte (40_framer.md R149), and the iteration moves the outputs by what Command State and the parameters say
(43_control_cycle.md R210). Neither reads what the other writes, so the two may come in either order (20_memory.md
R73).
-/

namespace Sys2Proof.Machine

/-! ### The byte -/

/-- The framer after a byte at a legal offset (40_framer.md R130). -/
def framerAfter (b : Byte) (f : Framer) : Framer :=
  if b = 0xFF ∨ f.offset = 0 then { f with csum := 0, offset := 1 }
  else if f.offset = 6 then { f with offset := 0 }
  else { setPool f f.offset.toNat b with csum := f.csum + b, offset := BitVec.ofNat 3 (f.offset.toNat + 1) }

/-- The byte is the checksum byte of a frame and passes the test (40_framer.md R140). -/
def CommitsAt (b : Byte) (f : Framer) : Prop :=
  f.offset = 6 ∧ b ≠ 0xFF ∧ (f.csum = b ∨ (f.csum = 0xFF ∧ b = 0xFE))

theorem accepts_eq_true_iff (csum b : Byte) :
    accepts csum b = true ↔ csum = b ∨ (csum = 0xFF ∧ b = 0xFE) := by
  simp [accepts]

/-- The next framer is a function of the framer and the byte, whether the byte commits or not. -/
theorem rx_framer {b : Byte} {s t : State} (h : rx b s = .next t) : t.framer = framerAfter b s.framer := by
  rcases rx_eq_next h with ⟨hopen, _, rfl⟩ | ⟨hb, i, h1, h5, hi, rfl⟩ | ⟨hb, h6, rfl⟩
  · rw [framerAfter, if_pos hopen, openFrame_framer]
  · have h0 : s.framer.offset ≠ 0 := by bv_omega
    have h6 : s.framer.offset ≠ 6 := by bv_omega
    rw [framerAfter, if_neg (not_or.2 ⟨hb, h0⟩), if_neg h6, hi, takePayload_framer]
  · have h0 : s.framer.offset ≠ 0 := by rw [h6]; decide
    rw [framerAfter, if_neg (not_or.2 ⟨hb, h0⟩), if_pos h6, checkByte_eq]

/-- Only an accepted checksum byte changes Command State (40_framer.md R142, R149). -/
theorem rx_cmd_of_not_commitsAt {b : Byte} {s t : State} (hno : ¬CommitsAt b s.framer) (h : rx b s = .next t) :
    t.cmd = s.cmd := by
  rcases rx_eq_next h with ⟨_, _, rfl⟩ | ⟨_, i, _, _, _, rfl⟩ | ⟨hb, h6, rfl⟩
  · rw [openFrame_cmd]
  · rw [takePayload_cmd]
  · have hrejected : ¬accepts s.framer.csum b = true := fun ha => hno ⟨h6, hb, (accepts_eq_true_iff _ _).1 ha⟩
    rw [checkByte_eq, if_neg hrejected]

/-- A byte that commits nothing writes the framer alone. -/
theorem rx_of_not_commitsAt {b : Byte} {s : State} (h7 : s.framer.offset ≠ 7) (hno : ¬CommitsAt b s.framer) :
    rx b s = .next (s.withFramer (framerAfter b s.framer)) := by
  obtain ⟨t, ht⟩ := rx_total h7
  rw [ht, rx_frame ht, rx_framer ht, rx_cmd_of_not_commitsAt hno ht, withFramer_eq]

theorem step_byte_of_not_commitsAt {s : State} {b : Byte} {rest : List Line} (h : s.agenda = .byte b :: rest)
    (h7 : s.framer.offset ≠ 7) (hno : ¬CommitsAt b s.framer) :
    step s = .next ((s.withAgenda rest).withFramer (framerAfter b s.framer)) := by
  rw [step_byte h]
  exact rx_of_not_commitsAt h7 hno

/-! ### The iteration -/

/-- The calls of an iteration that moves the outputs to `o`, in the source's order (43_control_cycle.md R210). -/
def outputCalls (o : Outputs) : List Call :=
  [.drive .left o.lvlL, .drive .right o.lvlR, .drive .lift o.lvlLift, .setPulseWidth .rot o.pwRot,
    .setPulseWidth .chin o.pwChin]

/-- The targets of the motors are levels themselves, so smoothing keeps the range (10_state.md R41). -/
theorem levelsInRange_smoothedOutputs {s : State} (h : LevelsInRange s.out) : LevelsInRange (smoothedOutputs s) := by
  obtain ⟨hL, hR, hLift⟩ := h
  refine ⟨smoothNext_mem_Icc ?wheel hL (triNum_range _), smoothNext_mem_Icc ?wheel hR (triNum_range _),
    smoothNext_mem_Icc ?lift hLift (triNum_range _)⟩
  case wheel => norm_num [gWheel]
  case lift => norm_num [gLift]

/-- With the levels in range an iteration ends: every output makes its smoothing step and its call. -/
theorem execIter_of_range {s : State} (h : LevelsInRange s.out) : execIter s =
    .next { s with out := smoothedOutputs s, calls := s.calls ++ outputCalls (smoothedOutputs s) } := by
  obtain ⟨hL, hR, hLift⟩ := levelsInRange_smoothedOutputs h
  dsimp only [smoothedOutputs] at hL hR hLift
  -- The three drives go through, then both sides are spelled out as one record.
  simp only [execIter, snapshot, execUpdLeft, execUpdRight, execUpdLift, execUpdRot, execUpdChin, updateMotor,
    readMotor, storeLevel, emit_out, withOut_out, driveMotor_of_range, hL, hR, hLift, and_self, andThen_next]
  simp [outputCalls, smoothedOutputs, writeWidth, storeWidth, withOut_eq, emit_eq]

theorem step_tick_of_range {s : State} {rest : List Line} (h : s.agenda = .tick :: rest) (hs : LevelsInRange s.out) :
    step s = .next { s with
      out := smoothedOutputs s, calls := s.calls ++ outputCalls (smoothedOutputs s), agenda := rest } := by
  rw [step_tick h]
  exact execIter_of_range hs

/-! ### Either order -/

theorem run_two {s t u : State} (h1 : step s = .next t) (h2 : step t = .next u) :
    Host.Core.run Sys2Proof.core 2 s = .next u := by
  rw [run_succ_of_next 1 h1, run_succ_of_next 0 h2, run_zero]

/-- Settles O59: each order is two steps that end in a state, and the two ends are the same, for the byte keeps what the
iteration reads and the iteration keeps the framer. -/
theorem byteAndIterationCommuteUnlessCommit : Obligations.ByteAndIterationCommuteUnlessCommit := by
  intro s b rest h7 hs hno
  have byteFirst : Host.Core.run Sys2Proof.core 2 { s with agenda := .byte b :: .tick :: rest } = _ :=
    run_two (step_byte_of_not_commitsAt rfl h7 hno) (step_tick_of_range rfl hs)
  have iterationFirst : Host.Core.run Sys2Proof.core 2 { s with agenda := .tick :: .byte b :: rest } = _ :=
    run_two (step_tick_of_range rfl hs) (step_byte_of_not_commitsAt rfl h7 hno)
  exact byteFirst.trans iterationFirst.symm

end Sys2Proof.Machine
end

section
/-!
PROOFS. The operation map of 30_encoding.md R100 read in both directions: what the encoder writes for a well-formed
operation decodes to it, and what is decoded is well formed and is written back as the same bytes. The flags byte is
taken apart by its value for format EXT (R93) and by its bits for the rows that read it.
-/

namespace Sys2Proof

/-! ### The fields of the flags byte (R93) -/

theorem toNat_append_eq_add {v w : Nat} (x : BitVec v) (y : BitVec w) :
    (x ++ y).toNat = x.toNat * 2 ^ w + y.toNat := by
  rw [BitVec.toNat_append, ← Nat.shiftLeft_add_eq_or_of_lt y.isLt, Nat.shiftLeft_eq]

/-- Each field has the weight of its lowest bit; all else about the fields is arithmetic from here. -/
theorem toNat_assembleFlags (bit7 reverse : BitVec 1) (move lift : BitVec 2) (lock bit0 : BitVec 1) :
    (assembleFlags bit7 reverse move lift lock bit0).toNat =
      bit7.toNat * 128 + reverse.toNat * 64 + move.toNat * 16 + lift.toNat * 4 + lock.toNat * 2 + bit0.toNat := by
  simp only [assembleFlags, toNat_append_eq_add]
  omega

theorem flagFields_assembleFlags (bit7 reverse : BitVec 1) (move lift : BitVec 2) (lock bit0 : BitVec 1) :
    flagFields (assembleFlags bit7 reverse move lift lock bit0) = .ext bit7 reverse move lift lock bit0 := by
  have hbit7 := bit7.isLt
  have hreverse := reverse.isLt
  have hmove := move.isLt
  have hlift := lift.isLt
  have hlock := lock.isLt
  have hbit0 := bit0.isLt
  simp only [flagFields, Instr.ext.injEq, ← BitVec.toNat_inj, BitVec.extractLsb'_toNat, Nat.shiftRight_eq_div_pow,
    toNat_assembleFlags]
  omega

theorem assembleFlags_extractLsb' (e : Byte) :
    assembleFlags (e.extractLsb' 7 1) (e.extractLsb' 6 1) (e.extractLsb' 4 2) (e.extractLsb' 2 2) (e.extractLsb' 1 1)
      (e.extractLsb' 0 1) = e := by
  have he := e.isLt
  simp only [← BitVec.toNat_inj, toNat_assembleFlags, BitVec.extractLsb'_toNat, Nat.shiftRight_eq_div_pow]
  omega

/-- Settles O12: the fields of the assembled byte are the given ones, and its value is their weighted sum. -/
theorem extAssemblesTheFlagsByte : Obligations.ExtAssemblesTheFlagsByte := by
  intro bit7 reverse move lift lock bit0 s
  have fields := flagFields_assembleFlags bit7 reverse move lift lock bit0
  simp only [flagFields, Instr.ext.injEq] at fields
  obtain ⟨hbit7, hreverse, hmove, hlift, hlock, hbit0⟩ := fields
  refine ⟨assembleFlags bit7 reverse move lift lock bit0, rfl, hbit7, hreverse, hmove, hlift, hlock, hbit0, ?value⟩
  rintro rfl rfl
  simp [toNat_assembleFlags]

/-- All fields are set in the one byte that the format cannot carry (R102). -/
theorem allFlags_iff (bit7 reverse : BitVec 1) (move lift : BitVec 2) (lock bit0 : BitVec 1) :
    allFlags bit7 reverse move lift lock bit0 = true ↔ assembleFlags bit7 reverse move lift lock bit0 = syncByte := by
  have fields_of_sync : flagFields syncByte = .ext 1 1 3 3 1 1 := rfl
  constructor
  · intro h
    simp only [allFlags, Bool.and_eq_true, beq_iff_eq] at h
    obtain ⟨⟨⟨⟨⟨rfl, rfl⟩, rfl⟩, rfl⟩, rfl⟩, rfl⟩ := h
    rfl
  · intro h
    have fields := flagFields_assembleFlags bit7 reverse move lift lock bit0
    rw [h, fields_of_sync] at fields
    cases fields
    rfl

/-! ### The rows that read the flags byte (R100) -/

theorem rowMatches_iff (mask value e : Byte) : rowMatches mask value e = true ↔ e &&& mask = value := beq_iff_eq

/-- A pattern of the opcode table is matched by the bytes that have its bits at the positions of its mask. -/
theorem rowMatches_iff_bits {mask value : Byte} (hvalue : value &&& mask = value) (e : Byte) :
    rowMatches mask value e = true ↔ ∀ i, mask.getLsbD i = true → e.getLsbD i = value.getLsbD i := by
  rw [rowMatches_iff]
  constructor
  · rintro rfl i hi
    rw [BitVec.getLsbD_and, hi, Bool.and_true]
  · intro agree
    rw [← hvalue]
    refine BitVec.eq_of_getLsbD_eq fun i _ => ?_
    rw [BitVec.getLsbD_and, BitVec.getLsbD_and]
    cases hmask : mask.getLsbD i with
    | false => rw [Bool.and_false, Bool.and_false]
    | true => rw [agree i hmask]

/-- Every mask of R100 for the flags byte has two bits, or one (then `i` and `j` are the same). -/
theorem rowMatches_iff_two_bits {mask value : Byte} (i j : Nat) (e : Byte) (hi : i < 8 := by decide)
    (hj : j < 8 := by decide) (hmask : mask = .twoPow 8 i ||| .twoPow 8 j := by rfl)
    (hvalue : value &&& mask = value := by rfl) :
    rowMatches mask value e = true ↔ e.getLsbD i = value.getLsbD i ∧ e.getLsbD j = value.getLsbD j := by
  have positions : ∀ k, mask.getLsbD k = true ↔ i = k ∨ j = k := by
    simp [hmask, BitVec.getLsbD_or, BitVec.getLsbD_twoPow, hi, hj]
  simp only [rowMatches_iff_bits hvalue, positions, or_imp, forall_and, forall_eq']

theorem decodeLeftWheel_rows (e : Byte) :
    (decodeLeftWheel e = .decLeftReverse e ↔ rowMatches 0x40 0x40 e = true) ∧
    (decodeLeftWheel e = .decLeftMove e ↔ rowMatches 0x50 0x10 e = true) ∧
    (decodeLeftWheel e = .decLeftStop e ↔ rowMatches 0x50 0x00 e = true) := by
  rw [rowMatches_iff_two_bits 6 6, rowMatches_iff_two_bits 6 4, rowMatches_iff_two_bits 6 4, decodeLeftWheel]
  cases e.getLsbD 6 <;> cases e.getLsbD 4 <;> simp

theorem decodeRightWheel_rows (e : Byte) :
    (decodeRightWheel e = .decRightReverse e ↔ rowMatches 0x40 0x40 e = true) ∧
    (decodeRightWheel e = .decRightMove e ↔ rowMatches 0x60 0x20 e = true) ∧
    (decodeRightWheel e = .decRightStop e ↔ rowMatches 0x60 0x00 e = true) := by
  rw [rowMatches_iff_two_bits 6 6, rowMatches_iff_two_bits 6 5, rowMatches_iff_two_bits 6 5, decodeRightWheel]
  cases e.getLsbD 6 <;> cases e.getLsbD 5 <;> simp

theorem decodeLiftCode_rows (e : Byte) :
    (decodeLiftCode e = .decLift0 e ↔ rowMatches 0x0C 0x00 e = true) ∧
    (decodeLiftCode e = .decLift1 e ↔ rowMatches 0x0C 0x04 e = true) ∧
    (decodeLiftCode e = .decLift2 e ↔ rowMatches 0x0C 0x08 e = true) ∧
    (decodeLiftCode e = .decLift3 e ↔ rowMatches 0x0C 0x0C e = true) := by
  rw [rowMatches_iff_two_bits 3 2, rowMatches_iff_two_bits 3 2, rowMatches_iff_two_bits 3 2,
    rowMatches_iff_two_bits 3 2, decodeLiftCode]
  cases e.getLsbD 3 <;> cases e.getLsbD 2 <;> simp

theorem decodeLockBit_rows (e : Byte) :
    (decodeLockBit e = .commitOpen ↔ rowMatches 0x02 0x00 e = true) ∧
    (decodeLockBit e = .commitLocked ↔ rowMatches 0x02 0x02 e = true) := by
  rw [rowMatches_iff_two_bits 1 1, rowMatches_iff_two_bits 1 1, decodeLockBit]
  cases e.getLsbD 1 <;> simp

/-- Settles O44: the rows of each group, with the masks written out. -/
theorem flagRowsAreChosenByTheirPattern : Obligations.FlagRowsAreChosenByTheirPattern := by
  intro e
  simp only [decode, oneByte, Except.ok.injEq, decodeLeftWheel_rows, decodeRightWheel_rows, decodeLiftCode_rows,
    decodeLockBit_rows, rowMatches_iff, and_self]

/-- Settles O45: the decoder computes each of the nine words. -/
theorem wordsOfTheSpecDecode : Obligations.WordsOfTheSpecDecode :=
  ⟨rfl, rfl, rfl, rfl, rfl, rfl, rfl, rfl, rfl⟩

/-! ### From an operation to its bytes and back -/

theorem carried_iff (b : Byte) : carried b = true ↔ b ≠ syncByte := bne_iff_ne

theorem Machine.PacketWellFormed.of_contains_syncByte {e c y x z k : Byte}
    (h : [e, c, y, x, z, k].contains syncByte = false) : Machine.PacketWellFormed e c y x z k := by
  have hsync : syncByte ∉ [e, c, y, x, z, k] := by simpa using h
  simp only [List.mem_cons, List.not_mem_nil, or_false, not_or] at hsync
  obtain ⟨he, hc, hy, hx, hz, hk⟩ := hsync
  exact ⟨Ne.symm he, Ne.symm hc, Ne.symm hy, Ne.symm hx, Ne.symm hz, Ne.symm hk⟩

theorem pkt_wellFormed_iff (e c y x z k : Byte) :
    (Instr.pkt e c y x z k).wellFormed = true ↔ Machine.PacketWellFormed e c y x z k := by
  simp only [Instr.wellFormed, Bool.and_eq_true, carried_iff, and_assoc]
  rfl

theorem decodeFlags_assembleFlags {bit7 reverse : BitVec 1} {move lift : BitVec 2} {lock bit0 : BitVec 1}
    (h : allFlags bit7 reverse move lift lock bit0 = false) :
    decodeFlags (assembleFlags bit7 reverse move lift lock bit0) = .ok (.ext bit7 reverse move lift lock bit0) := by
  have hsync : assembleFlags bit7 reverse move lift lock bit0 ≠ syncByte := fun hs => by
    rw [(allFlags_iff ..).2 hs] at h
    cases h
  rw [decodeFlags, if_neg (by simpa using hsync), flagFields_assembleFlags]

/-- Settles O41: a carried byte is not taken for the sync byte, the fields of a flags byte are found again, a flags byte
of a row matches that row's pattern, and an operation that is not carried is named by its selector. -/
theorem decodeOfEncodeIsTheOperation : Obligations.DecodeOfEncodeIsTheOperation := by
  intro i h
  cases i with
  | rxResync | rxNone | commitOpen | commitLocked | iter | rst => rfl
  | rxSync b | rxPay1 b | rxPay2 b | rxPay3 b | rxPay4 b | rxPay5 b | rxCheck b =>
    have hb : b ≠ syncByte := (carried_iff b).1 h
    simp [encode, decode, decodeRx, oneByte, decodeByte, hb]
  | pkt e c y x z k =>
    exact Machine.decodeSeven_packet ((pkt_wellFormed_iff ..).1 h).contains_syncByte
  | ext bit7 reverse move lift lock bit0 => exact decodeFlags_assembleFlags (by simpa [Instr.wellFormed] using h)
  | decLeftReverse e | decLeftMove e | decLeftStop e =>
    simpa only [encode, decode, oneByte, Except.ok.injEq, decodeLeftWheel_rows, Instr.wellFormed] using h
  | decRightReverse e | decRightMove e | decRightStop e =>
    simpa only [encode, decode, oneByte, Except.ok.injEq, decodeRightWheel_rows, Instr.wellFormed] using h
  | decLift0 e | decLift1 e | decLift2 e | decLift3 e =>
    simpa only [encode, decode, oneByte, Except.ok.injEq, decodeLiftCode_rows, Instr.wellFormed] using h
  | smooth c t g => exact if_pos h
  | tgtLeft | tgtRight | tgtLift | tgtRot | tgtChin | updRot | updChin => rfl
  | updLeft t | updRight t | updLift t => exact if_pos h

/-! ### From bytes to an operation and back -/

/-- The operation is well formed and the encoder writes these bytes for it. -/
def Instr.Writes (i : Instr) (bytes : List Byte) : Prop := i.wellFormed = true ∧ (encode i).2 = bytes

theorem decodeByte_writes {o : Offset} {b : Byte} {i : Instr} (h : decodeByte o b = .ok i) : i.Writes [b] := by
  by_cases hb : b = syncByte
  · subst hb
    unfold decodeByte at h
    split at h <;> cases h <;> exact ⟨rfl, rfl⟩
  · have hcarried : carried b = true := (carried_iff b).2 hb
    simp only [decodeByte, beq_iff_eq, hb, if_false] at h
    split at h <;> cases h <;> exact ⟨hcarried, rfl⟩

theorem decodeRx_writes {o : Offset} {bytes : List Byte} {i : Instr} (h : decodeRx o bytes = .ok i) :
    i.Writes bytes := by
  rcases Machine.decodeRx_eq_ok h with ⟨rfl, rfl⟩ | ⟨b, rfl, hb⟩
  · exact ⟨rfl, rfl⟩
  · exact decodeByte_writes hb

theorem decodeSeven_writes {bytes : List Byte} {i : Instr} (h : decodeSeven bytes = .ok i) : i.Writes bytes := by
  obtain ⟨e, c, y, x, z, k, rfl, hsync, rfl⟩ := Machine.decodeSeven_eq_ok h
  exact ⟨(pkt_wellFormed_iff ..).2 (Machine.PacketWellFormed.of_contains_syncByte hsync), rfl⟩

theorem decodeFlags_writes {e : Byte} {i : Instr} (h : decodeFlags e = .ok i) : i.Writes [e] := by
  unfold decodeFlags at h
  split at h
  case isTrue => cases h
  case isFalse hsync =>
    cases h
    refine ⟨?_, congrArg (fun b => [b]) (assembleFlags_extractLsb' e)⟩
    rw [flagFields, Instr.wellFormed, Bool.not_eq_true', ← Bool.not_eq_true, allFlags_iff, assembleFlags_extractLsb']
    simpa using hsync

theorem decodeLeftWheel_writes (e : Byte) : (decodeLeftWheel e).Writes [e] := by
  obtain ⟨reverse, move, stop⟩ := decodeLeftWheel_rows e
  have row : decodeLeftWheel e = .decLeftReverse e ∨ decodeLeftWheel e = .decLeftMove e ∨
      decodeLeftWheel e = .decLeftStop e := by grind [decodeLeftWheel]
  rcases row with h | h | h <;> rw [h]
  · exact ⟨reverse.1 h, rfl⟩
  · exact ⟨move.1 h, rfl⟩
  · exact ⟨stop.1 h, rfl⟩

theorem decodeRightWheel_writes (e : Byte) : (decodeRightWheel e).Writes [e] := by
  obtain ⟨reverse, move, stop⟩ := decodeRightWheel_rows e
  have row : decodeRightWheel e = .decRightReverse e ∨ decodeRightWheel e = .decRightMove e ∨
      decodeRightWheel e = .decRightStop e := by grind [decodeRightWheel]
  rcases row with h | h | h <;> rw [h]
  · exact ⟨reverse.1 h, rfl⟩
  · exact ⟨move.1 h, rfl⟩
  · exact ⟨stop.1 h, rfl⟩

theorem decodeLiftCode_writes (e : Byte) : (decodeLiftCode e).Writes [e] := by
  obtain ⟨code0, code1, code2, code3⟩ := decodeLiftCode_rows e
  have row : decodeLiftCode e = .decLift0 e ∨ decodeLiftCode e = .decLift1 e ∨ decodeLiftCode e = .decLift2 e ∨
      decodeLiftCode e = .decLift3 e := by grind [decodeLiftCode]
  rcases row with h | h | h | h <;> rw [h]
  · exact ⟨code0.1 h, rfl⟩
  · exact ⟨code1.1 h, rfl⟩
  · exact ⟨code2.1 h, rfl⟩
  · exact ⟨code3.1 h, rfl⟩

theorem updateOf_writes {a : Actuator} {t : NumQ} {i : Instr} (h : updateOf a t = .ok i) : i.Writes [] := by
  cases a with
  | left | right | lift =>
    simp only [updateOf] at h
    split at h
    case isTrue ht => cases h; exact ⟨ht, rfl⟩
    case isFalse => cases h
  | rot | chin => cases h; exact ⟨rfl, rfl⟩

theorem decodeSmooth_writes {c t g : NumQ} {i : Instr} (h : decodeSmooth c t g = .ok i) : i.Writes [] := by
  unfold decodeSmooth at h
  split at h
  case isTrue hg => cases h; exact ⟨hg, rfl⟩
  case isFalse => cases h

/-- For every selector but the lock bit, which names two operations without an operand. -/
theorem decode_writes {src : Source} {bytes : List Byte} {i : Instr} (hsrc : src ≠ .lockBit)
    (h : decode src bytes = .ok i) : i.Writes bytes := by
  cases src with
  | rx o => exact decodeRx_writes h
  | packet => exact decodeSeven_writes h
  | lockBit => exact absurd rfl hsrc
  | flags =>
    obtain ⟨e, rfl, he⟩ := Machine.oneByte_eq_ok h
    exact decodeFlags_writes he
  | leftWheel =>
    obtain ⟨e, rfl, he⟩ := Machine.oneByte_eq_ok h
    cases he
    exact decodeLeftWheel_writes e
  | rightWheel =>
    obtain ⟨e, rfl, he⟩ := Machine.oneByte_eq_ok h
    cases he
    exact decodeRightWheel_writes e
  | liftCode =>
    obtain ⟨e, rfl, he⟩ := Machine.oneByte_eq_ok h
    cases he
    exact decodeLiftCode_writes e
  | smooth c t g =>
    obtain ⟨rfl, hd⟩ := Machine.noBytes_eq_ok h
    exact decodeSmooth_writes hd
  | update a t =>
    obtain ⟨rfl, hd⟩ := Machine.noBytes_eq_ok h
    exact updateOf_writes hd
  | target a snap =>
    obtain ⟨rfl, hd⟩ := Machine.noBytes_eq_ok h
    cases hd
    cases a <;> exact ⟨rfl, rfl⟩
  | tick | reset =>
    obtain ⟨rfl, hd⟩ := Machine.noBytes_eq_ok h
    cases hd
    exact ⟨rfl, rfl⟩

/-- Settles O42: of the operations that are decoded those of the lock bit have no operand to test. -/
theorem decodedOperationsAreWellFormed : Obligations.DecodedOperationsAreWellFormed := by
  intro src bytes i h
  by_cases hsrc : src = .lockBit
  case neg => exact (decode_writes hsrc h).1
  case pos =>
    subst hsrc
    obtain ⟨e, rfl, he⟩ := Machine.oneByte_eq_ok h
    cases he
    unfold decodeLockBit
    split <;> rfl

/-- Settles O43: the second half of what `decode_writes` says. -/
theorem encodeOfDecodeKeepsTheBytes : Obligations.EncodeOfDecodeKeepsTheBytes :=
  fun _ _ _ hsrc h => (decode_writes hsrc h).2

end Sys2Proof
end

section
/-!
PROOFS. A packet (30_encoding.md R90, R105 to R108): its seven bytes as one sequence of receptions, which from any legal
offset fills the framer with the packet's own payload, and as the seven `BYTE` lines that the packet line stands for.
-/

namespace Sys2Proof.Machine

/-! ### The sender's checksum byte -/

theorem payloadSum_eq (e c y x z : Byte) : payloadSum e c y x z = e + c + y + x + z := rfl

theorem accepts_payload_iff (e c y x z k : Byte) :
    accepts (e + c + y + x + z) k = true ↔ PacketValid e c y x z k := by
  rw [accepts_eq_true_iff, PacketValid, eq_comm]

/-- Settles O11: the sum itself, unless it is 0xFF, which only the tolerated byte 0xFE confirms. -/
theorem senderChecksumIsValid : Obligations.SenderChecksumIsValid := by
  intro e c y x z
  unfold encodeChecksum PacketValid
  rw [payloadSum_eq]
  generalize e + c + y + x + z = sum
  by_cases hsum : sum = 0xFF
  case pos =>
    subst hsum
    refine ⟨by decide, .inr ⟨rfl, rfl⟩, ?_⟩
    rintro k hk (rfl | ⟨_, rfl⟩)
    · exact absurd rfl hk
    · rfl
  case neg =>
    rw [if_neg (by simpa using hsum)]
    refine ⟨hsum, .inl rfl, ?_⟩
    rintro k _ (rfl | ⟨h, _⟩)
    · rfl
    · exact absurd h hsum

/-! ### One byte at a known position -/

theorem rx_sync {s : State} (h : s.framer.offset ≠ 7) : rx syncByte s = .next (openFrame s) := by
  obtain ⟨t, ht⟩ := rx_total (b := syncByte) h
  rcases rx_eq_next ht with ⟨_, _, rfl⟩ | ⟨hb, _⟩ | ⟨hb, _⟩
  · exact ht
  · exact absurd rfl hb
  · exact absurd rfl hb

theorem rx_payload {i : Nat} {b : Byte} {s : State} (h1 : 1 ≤ i) (h5 : i ≤ 5) (hi : s.framer.offset.toNat = i)
    (hb : b ≠ 0xFF) : rx b s = .next (takePayload i b s) := by
  obtain ⟨t, ht⟩ := rx_total (b := b) (s := s) (by bv_omega)
  rcases rx_eq_next ht with ⟨hopen, _⟩ | ⟨_, j, _, _, hj, rfl⟩ | ⟨_, h6, _⟩
  · exact absurd hopen (not_or.2 ⟨hb, by bv_omega⟩)
  · rw [ht, ← hj, hi]
  · exact absurd h6 (by bv_omega)

theorem rx_check {b : Byte} {s : State} (h6 : s.framer.offset = 6) (hb : b ≠ 0xFF) :
    rx b s = .next (checkByte b s) := by
  obtain ⟨t, ht⟩ := rx_total (b := b) (s := s) (by rw [h6]; decide)
  rcases rx_eq_next ht with ⟨hopen, _⟩ | ⟨_, i, _, h5, hi, _⟩ | ⟨_, _, rfl⟩
  · exact absurd hopen (not_or.2 ⟨hb, by rw [h6]; decide⟩)
  · rw [h6] at hi
    exact absurd h5 (by rw [← hi]; decide)
  · exact ht

/-! ### The seven bytes -/

/-- The framer that holds a whole payload and awaits the checksum byte (40_framer.md R138, R144). -/
def payloadFramer (e c y x z : Byte) : Framer :=
  { offset := 6, csum := e + c + y + x + z, pExt := e, pChin := c, pRotY := y, pRotX := x, pRotZ := z }

theorem takePayload_eq (i : Nat) (b : Byte) (s : State) : takePayload i b s = s.withFramer
    { setPool s.framer i b with csum := s.framer.csum + b, offset := BitVec.ofNat 3 (i + 1) } := rfl

/-- The sync byte and five payload bytes fill the framer, whatever it held (40_framer.md R148). -/
theorem takePayload_frame (e c y x z : Byte) (s : State) :
    takePayload 5 z (takePayload 4 x (takePayload 3 y (takePayload 2 c (takePayload 1 e (openFrame s))))) =
      s.withFramer (payloadFramer e c y x z) := by
  simp [takePayload_eq, openFrame_eq, withFramer_eq, setPool, payloadFramer]

/-- A well-formed packet is its payload in the framer and then the test of its checksum byte. -/
theorem execPkt_eq {e c y x z k : Byte} {s : State} (hw : PacketWellFormed e c y x z k) (h7 : s.framer.offset ≠ 7) :
    execPkt e c y x z k s = .next (checkByte k (s.withFramer (payloadFramer e c y x z))) := by
  obtain ⟨he, hc, hy, hx, hz, hk⟩ := hw
  unfold execPkt packetBytes
  simp only [rxAll, rx_sync h7, andThen_next]
  rw [rx_payload (i := 1) (by decide) (by decide) rfl he, andThen_next,
    rx_payload (i := 2) (by decide) (by decide) rfl hc, andThen_next,
    rx_payload (i := 3) (by decide) (by decide) rfl hy, andThen_next,
    rx_payload (i := 4) (by decide) (by decide) rfl hx, andThen_next,
    rx_payload (i := 5) (by decide) (by decide) rfl hz, andThen_next,
    takePayload_frame, rx_check rfl hk, andThen_next]

/-- A commit moves the pools into Command State, the counts only if the lock bit of the new flags byte is clear
(41_command_decode.md R160, R161). -/
theorem commit_cmd (s : State) : (commit s).cmd =
    committed s.framer.pExt s.framer.pChin s.framer.pRotY s.framer.pRotX s.framer.pRotZ s.cmd := by
  unfold commit lockSet committed
  cases s.framer.pExt.getLsbD 1 <;> rfl

/-- Settles O10: the framer holds the packet's own payload when the checksum byte is tested. -/
theorem pktIsTestedOnItsOwnPayload : Obligations.PktIsTestedOnItsOwnPayload := by
  intro e c y x z k s hw h7
  refine ⟨_, execPkt_eq hw h7, ?frame, ?valid, ?invalid⟩ <;> rw [checkByte_eq]
  case frame => rfl
  case valid =>
    intro hv
    exact (if_pos ((accepts_payload_iff ..).2 hv)).trans (commit_cmd _)
  case invalid =>
    intro hv
    exact if_neg (mt (accepts_payload_iff ..).1 hv)

/-! ### The seven lines -/

theorem commit_withAgenda (s : State) (ls : List Line) : commit (s.withAgenda ls) = (commit s).withAgenda ls := by
  unfold commit
  rw [withAgenda_framer]
  split <;> rfl

theorem checkByte_withAgenda (b : Byte) (s : State) (ls : List Line) :
    checkByte b (s.withAgenda ls) = (checkByte b s).withAgenda ls := by
  unfold checkByte
  rw [withAgenda_framer, commit_withAgenda]
  split <;> rfl

/-- A byte neither reads nor writes the events to come. -/
theorem rx_withAgenda (b : Byte) (s : State) (ls : List Line) :
    rx b (s.withAgenda ls) = andThen (rx b s) fun t => .next (t.withAgenda ls) := by
  unfold rx
  rw [withAgenda_framer, checkByte_withAgenda]
  split
  case h_1 => rfl
  case h_8 => rfl
  all_goals split <;> rfl

/-- `BYTE` lines at the head of the agenda are received one after another. -/
theorem run_bytes (bs : List Byte) (rest : List Line) {s : State} (h : s.agenda = bs.map Line.byte ++ rest) :
    Host.Core.run Sys2Proof.core bs.length s = rxAll bs (s.withAgenda rest) := by
  induction bs generalizing s with
  | nil => 
    have hs : s.withAgenda rest = s := withAgenda_of_agenda h
    exact congrArg Host.Outcome.next hs.symm
  | cons b bs ih =>
    rw [List.length_cons, run_succ, step_byte h, rx_withAgenda, rxAll, rx_withAgenda]
    cases rx b s with
    | next t => exact ih rfl
    | fault r => rfl
    | refused r => rfl

/-- Settles O57: the packet line and its seven lines both receive the packet's bytes. -/
theorem packetLineIsItsSevenBytes : Obligations.PacketLineIsItsSevenBytes := by
  intro s e c y x z k rest hw h
  rw [step_packet h hw]
  exact (run_bytes (packetBytes e c y x z k) rest
    (s := s.withAgenda ((packetBytes e c y x z k).map Line.byte ++ rest)) rfl).symm

end Sys2Proof.Machine
end

section
/-!
PROOFS. The stops of the machine (60_exceptions.md R230): a byte stops at offset 7 only, an iteration at a level outside
its range only (assumption logs 5 and 6), a reset never.
-/

namespace Sys2Proof.Machine

/-- The answer ends in a state, or it faults for a reason that the state `s` it was given from accounts for. -/
def StopsOnlyUnreachable (s : State) : Answer → Prop
  | .next _ => True
  | .fault r => (r = .offsetSeven ∧ s.framer.offset = 7) ∨ (r = .levelOutOfRange ∧ ¬LevelsInRange s.out)
  | .refused _ => False

/-- A byte leads to a legal offset (40_framer.md R146). -/
theorem rx_offset_ne_seven {b : Byte} {s t : State} (h : rx b s = .next t) : t.framer.offset ≠ 7 := by
  rcases rx_eq_next h with ⟨_, _, rfl⟩ | ⟨_, i, h1, h5, _, rfl⟩ | ⟨_, _, rfl⟩
  · simp
  · interval_cases i <;> simp
  · simp [checkByte_eq]

/-- From a legal offset every sequence of bytes ends in a state. -/
theorem rxAll_total (bs : List Byte) {s : State} (h : s.framer.offset ≠ 7) : ∃ t, rxAll bs s = .next t := by
  induction bs generalizing s with
  | nil => exact ⟨s, rfl⟩
  | cons b bs ih =>
    obtain ⟨u, hu⟩ := rx_total (b := b) h
    rw [rxAll, hu, andThen_next]
    exact ih (rx_offset_ne_seven hu)

theorem rx_of_offset_seven (b : Byte) {s : State} (h : s.framer.offset = 7) : rx b s = .fault .offsetSeven := by
  simp [rx, h]

theorem rxAll_stops (bs : List Byte) (s : State) : StopsOnlyUnreachable s (rxAll bs s) := by
  by_cases h7 : s.framer.offset = 7
  case neg =>
    obtain ⟨t, ht⟩ := rxAll_total bs h7
    rw [ht]
    trivial
  case pos =>
    cases bs with
    | nil => trivial
    | cons b bs =>
      rw [rxAll, rx_of_offset_seven b h7]
      exact .inl ⟨rfl, h7⟩

/-- The answer ends in a state, or a motor driver was given a level outside [−1, 1]. -/
def StopsOnlyAtLevel (a : Answer) : Prop := (∃ t, a = .next t) ∨ a = .fault .levelOutOfRange

theorem StopsOnlyAtLevel.andThen {a : Answer} {f : State → Answer} (ha : StopsOnlyAtLevel a)
    (hf : ∀ s, StopsOnlyAtLevel (f s)) : StopsOnlyAtLevel (andThen a f) := by
  rcases ha with ⟨s, rfl⟩ | rfl
  · exact hf s
  · exact .inr rfl

theorem updateMotor_stopsOnlyAtLevel (m : Motor) (gain target : NumQ) (s : State) :
    StopsOnlyAtLevel (updateMotor m gain target s) := by
  unfold updateMotor driveMotor
  split
  · exact .inl ⟨_, rfl⟩
  · exact .inr rfl

theorem execIter_stopsOnlyAtLevel (s : State) : StopsOnlyAtLevel (execIter s) :=
  (updateMotor_stopsOnlyAtLevel ..).andThen fun _ => (updateMotor_stopsOnlyAtLevel ..).andThen fun _ =>
    (updateMotor_stopsOnlyAtLevel ..).andThen fun _ => .inl ⟨_, rfl⟩

/-- With the levels in range an iteration ends, so its fault shows that one of them was not. -/
theorem execIter_stops (s : State) : StopsOnlyUnreachable s (execIter s) := by
  by_cases hs : LevelsInRange s.out
  case pos =>
    rw [execIter_of_range hs]
    trivial
  case neg =>
    rcases execIter_stopsOnlyAtLevel s with ⟨t, ht⟩ | hfault
    · rw [ht]; trivial
    · rw [hfault]; exact .inr ⟨rfl, hs⟩

theorem execRst_stops (s : State) : StopsOnlyUnreachable s (execRst s) := by
  rw [execRst_eq]; trivial

/-- The line taken from the agenda is no ground to stop. -/
theorem step_stops (s : State) : StopsOnlyUnreachable s (step s) := by
  obtain ⟨rest, hstep⟩ := step_of_agenda s.agenda
  rcases hstep with iter | rst | ⟨bs, bytes⟩
  · rw [iter s rfl]
    exact execIter_stops (s.withAgenda rest)
  · rw [rst s rfl]
    exact execRst_stops (s.withAgenda rest)
  · rw [bytes s rfl]
    exact rxAll_stops bs (s.withAgenda rest)

/-- Settles O51: what `step_stops` says of a refusal and of a fault. -/
theorem stepStopsOnUnreachableStatesOnly : Obligations.StepStopsOnUnreachableStatesOnly := by
  intro s
  have stops := step_stops s
  refine ⟨fun r h => ?refused, fun r h => ?fault⟩ <;> rw [h] at stops
  case refused => exact stops
  case fault => exact stops

end Sys2Proof.Machine
end

section
/-!
PROOFS. The word that the host places is fetched and decoded as it was read (30_encoding.md R100, assumption log 12).
-/

namespace Sys2Proof.Machine

theorem decodeTableWord_eq_some {nbits w : Nat} {i : Instr} (h : decodeTableWord nbits w = some i) :
    decode (wordSource nbits) (wordBytes (nbits / 8) w) = .ok i := by
  unfold decodeTableWord at h
  split at h
  · rename_i hd
    cases h
    exact hd
  · cases h

/-- Settles O36: none, one or seven bytes are placed as a `NONE`, a `BYTE` or a `PKT` line, which is fetched again with
the selector and the bytes that the word was read with. -/
theorem placedWordRunsNext : Obligations.PlacedWordRunsNext := by
  intro s nbits w i h0 h
  have hd := decodeTableWord_eq_some h
  unfold State.withFetchWord placeWord wordLines
  unfold wordSource at hd
  split at hd
  case isTrue =>
    obtain ⟨e, c, y, x, z, k, hbytes, hsync, rfl⟩ := decodeSeven_eq_ok hd
    rw [hbytes]
    exact step_of_fetch (fetch_packet rfl hsync) (decodeSeven_packet hsync)
  case isFalse =>
    rcases decodeRx_eq_ok hd with ⟨hbytes, rfl⟩ | ⟨b, hbytes, hb⟩
    · rw [hbytes]
      exact step_noByte rfl
    · rw [hbytes]
      refine step_byte_of_decode rfl ?_
      rw [withAgenda_framer, h0]
      exact hb

end Sys2Proof.Machine
end

section
/-!
PROOFS. The framer's operations (40_framer.md R131 to R144): each row is one of three moves, opening a frame, taking a
payload byte, or testing the checksum byte, and the test has two arms.
-/

namespace Sys2Proof.Machine

/-! ### Opening a frame, and no byte -/

/-- Settles O1: the row opens a frame. -/
theorem rxResyncRestartsTheFrame : Obligations.RxResyncRestartsTheFrame :=
  fun s => congrArg Host.Outcome.next (openFrame_eq s)

/-- Settles O2: the row opens a frame, as `RX.RESYNC` does. -/
theorem rxSyncOpensAFrame : Obligations.RxSyncOpensAFrame :=
  fun _ s => rxResyncRestartsTheFrame s

/-- Settles O9: the meaning of the row is the state it was given. -/
theorem rxNoneChangesNothing : Obligations.RxNoneChangesNothing :=
  fun _ => rfl

/-! ### Payload bytes -/

/-- Settles O3: the byte starts the running checksum anew, as at every position it enters the sum (R144). -/
theorem rxPay1StoresExtended : Obligations.RxPay1StoresExtended := by
  refine ⟨fun b s => rfl, ?_⟩
  intro b s t h1 hs h
  cases h
  exact checksumRuns_takePayload b (i := 1) (by decide) (by decide) (by rw [h1]; rfl) hs

/-- Settles O4: positions 2, 3 and 4 of `setPool`. -/
theorem rxPay2To4StoreTheirByte : Obligations.RxPay2To4StoreTheirByte :=
  fun _ _ => ⟨rfl, rfl, rfl⟩

/-- Settles O5: the fifth byte makes the running checksum the sum of all five (R144). -/
theorem rxPay5StoresRotZ : Obligations.RxPay5StoresRotZ := by
  refine ⟨fun b s => rfl, ?_⟩
  intro b s t h5 hs h
  cases h
  exact checksumRuns_takePayload b (i := 5) (by decide) (by decide) (by rw [h5]; rfl) hs

/-! ### The checksum byte -/

/-- Settles O6: the test as a proposition, and three pairs that it rejects. -/
theorem acceptTestAdmitsOneMismatch : Obligations.AcceptTestAdmitsOneMismatch :=
  ⟨accepts_eq_true_iff, by decide, by decide, by decide⟩

/-- The accept arm commits the pools (40_framer.md R141, 41_command_decode.md R160). -/
theorem checkByte_of_accepted {b : Byte} {s : State}
    (h : s.framer.csum = b ∨ (s.framer.csum = 0xFF ∧ b = 0xFE)) : checkByte b s =
      { s with
        framer := { s.framer with offset := 0 }
        cmd := committed s.framer.pExt s.framer.pChin s.framer.pRotY s.framer.pRotX s.framer.pRotZ s.cmd } := by
  rw [checkByte_eq, if_pos ((accepts_eq_true_iff _ _).2 h), commit_cmd]

/-- The reject arm moves the offset alone (40_framer.md R142). -/
theorem checkByte_of_rejected {b : Byte} {s : State}
    (h : ¬(s.framer.csum = b ∨ (s.framer.csum = 0xFF ∧ b = 0xFE))) :
    checkByte b s = { s with framer := { s.framer with offset := 0 } } := by
  rw [checkByte_eq, if_neg (mt (accepts_eq_true_iff _ _).1 h)]

/-- Settles O7: the accept arm. -/
theorem rxCheckAcceptCommits : Obligations.RxCheckAcceptCommits :=
  fun _ _ h => congrArg Host.Outcome.next (checkByte_of_accepted h)

/-- Settles O8: the reject arm. -/
theorem rxCheckRejectOnlyResetsOffset : Obligations.RxCheckRejectOnlyResetsOffset :=
  fun _ _ h => congrArg Host.Outcome.next (checkByte_of_rejected h)

end Sys2Proof.Machine
end

section
/-!
PROOFS. A step on a byte is the transition rule as the source words it (40_framer.md R130), with its successor graph
(R146) and the case of a sum of 0xFF (R145).
-/

namespace Sys2Proof.Machine

/-! ### The rule -/

theorem transitionRule_of_open {b : Byte} {s : State} (h : b = 0xFF ∨ s.framer.offset = 0) :
    transitionRule b s = openFrame s := by
  have position : (if b = 0xFF then 0 else s.framer.offset.toNat) = 0 := by
    rcases h with hb | h0
    · exact if_pos hb
    · rw [h0]; exact ite_self 0
  simp only [transitionRule, position, if_true]
  rfl

theorem transitionRule_of_payload {i : Nat} {b : Byte} {s : State} (hb : b ≠ 0xFF) (h1 : 1 ≤ i) (h5 : i ≤ 5)
    (hi : s.framer.offset.toNat = i) : transitionRule b s = takePayload i b s := by
  simp only [transitionRule, if_neg hb, hi]
  interval_cases i <;> rfl

theorem transitionRule_of_check {b : Byte} {s : State} (hb : b ≠ 0xFF) (h6 : s.framer.offset = 6) :
    transitionRule b s = checkByte b s := by
  rw [checkByte_eq, commit_cmd]
  simp only [transitionRule, if_neg hb, h6, accepts_eq_true_iff]
  rfl

/-- At a legal offset the three things a byte can do are the three branches of the rule. -/
theorem rx_eq_transitionRule {b : Byte} {s : State} (h7 : s.framer.offset ≠ 7) :
    rx b s = .next (transitionRule b s) := by
  obtain ⟨t, ht⟩ := rx_total (b := b) h7
  rw [ht]
  rcases rx_eq_next ht with ⟨hopen, _, rfl⟩ | ⟨hb, i, h1, h5, hi, rfl⟩ | ⟨hb, h6, rfl⟩
  · rw [transitionRule_of_open hopen]
  · rw [transitionRule_of_payload hb h1 h5 hi]
  · rw [transitionRule_of_check hb h6]

theorem step_byte_eq_transitionRule {s : State} {b : Byte} {rest : List Line} (h7 : s.framer.offset ≠ 7)
    (h : s.agenda = .byte b :: rest) : step s = .next ((transitionRule b s).withAgenda rest) := by
  rw [step_byte h, rx_withAgenda, rx_eq_transitionRule h7, andThen_next]

/-- Settles O37: the step takes the line and applies the rule. -/
theorem byteStepIsTheTransitionRule : Obligations.ByteStepIsTheTransitionRule :=
  fun _ _ _ => step_byte_eq_transitionRule

/-- Settles O38: `rx` faults at offset 7, and taking the line leaves the offset as it was. -/
theorem offsetSevenFaults : Obligations.OffsetSevenFaults := by
  intro s b rest h7 h
  rw [step_byte h]
  exact rx_of_offset_seven b h7

/-! ### The successor graph -/

theorem framerAfter_offset (b : Byte) {f : Framer} (hf : OffsetLegal f) : (framerAfter b f).offset.toNat =
    if b = 0xFF ∨ f.offset = 0 then 1 else if f.offset = 6 then 0 else f.offset.toNat + 1 := by
  unfold OffsetLegal at hf
  unfold framerAfter
  split_ifs with _ h6
  · rfl
  · rfl
  · have hne : f.offset.toNat ≠ 6 := fun h => h6 (BitVec.eq_of_toNat_eq h)
    simp only [BitVec.toNat_ofNat]
    omega

/-- Settles O39: at a legal offset the decoder has a row that performs the transition rule, every decoded operation is
well formed, and the rule gives the next offset. -/
theorem framerIsTotalAndClosed : Obligations.FramerIsTotalAndClosed := by
  intro s b rest hlegal h
  have h7 : s.framer.offset ≠ 7 := by bv_omega
  rcases decodeByte_rx b s with ⟨i, hd, _⟩ | ⟨hseven, _⟩
  case inr => exact absurd hseven h7
  case inl =>
    obtain ⟨wellFormed, _⟩ := decodeRx_writes (bytes := [b]) hd
    obtain ⟨t, ht⟩ := rx_total (b := b) (s := s.withAgenda rest) h7
    refine ⟨i, t, hd, wellFormed, by rw [step_byte h, ht], ?_⟩
    rw [rx_framer ht]
    exact framerAfter_offset b hlegal

/-! ### A sum of 0xFF -/

/-- Settles O40: 0xFF is the sync byte at every offset, and of the other bytes the test admits 0xFE alone. -/
theorem sumFFIsConfirmedByFEOnly : Obligations.SumFFIsConfirmedByFEOnly := by
  intro s b rest h6 hsum h
  rw [step_byte h, rx_withAgenda]
  by_cases hb : b = syncByte
  case pos =>
    subst hb
    have h7 : s.framer.offset ≠ 7 := by rw [h6]; decide
    rw [rx_sync h7, andThen_next]
    exact ⟨_, rfl, fun hFE => absurd hFE (by decide), fun _ => ⟨rfl, rfl, rfl⟩, fun _ hne => absurd rfl hne⟩
  case neg =>
    rw [rx_check h6 hb, andThen_next]
    refine ⟨_, rfl, ?accepted, fun hFF => absurd hFF hb, ?rejected⟩
    case accepted =>
      intro hFE
      rw [checkByte_of_accepted (.inr ⟨hsum, hFE⟩)]
      exact ⟨rfl, rfl⟩
    case rejected =>
      intro hFE _
      have hno : ¬(s.framer.csum = b ∨ (s.framer.csum = 0xFF ∧ b = 0xFE)) := by
        rintro (heq | ⟨_, hFE'⟩)
        · exact hb (heq ▸ hsum)
        · exact hFE hFE'
      rw [checkByte_of_rejected hno]
      exact ⟨rfl, rfl⟩

end Sys2Proof.Machine
end

section
/-!
PROOFS. What changes Command State (40_framer.md R149): of the events, the accepted checksum byte, the valid packet and
reset, and no other.
-/

namespace Sys2Proof.Machine

theorem execIter_cmd {s t : State} (h : execIter s = .next t) : t.cmd = s.cmd := by
  obtain ⟨_, ht⟩ := execIter_eq_next h
  rw [ht]

theorem rx_syncByte_cmd {s t : State} (h : rx syncByte s = .next t) : t.cmd = s.cmd :=
  rx_cmd_of_not_commitsAt (fun ⟨_, hb, _⟩ => hb rfl) h

/-- A packet line with 0xFF inside is received as its first byte, the sync byte (30_encoding.md R102). -/
theorem step_packet_cut {s : State} {e c y x z k : Byte} {rest : List Line}
    (h : s.agenda = .packet e c y x z k :: rest) (hw : [e, c, y, x, z, k].contains syncByte = true) :
    step s = rx syncByte (s.withAgenda ([e, c, y, x, z, k].map Line.byte ++ rest)) := by
  have hbyte : step s = step (s.withAgenda (.byte syncByte :: ([e, c, y, x, z, k].map Line.byte ++ rest))) := by
    rw [step, fetch_packet_cut h hw, step, fetch_byte rfl]
    rfl
  exact hbyte.trans (step_byte rfl)

/-- A packet that is received to its end began at a legal offset, and it changes Command State only if it is valid. -/
theorem execPkt_cmd_ne {e c y x z k : Byte} {s t : State} (hw : PacketWellFormed e c y x z k)
    (h : execPkt e c y x z k s = .next t) (hcmd : t.cmd ≠ s.cmd) :
    s.framer.offset ≠ 7 ∧ PacketValid e c y x z k := by
  have h7 : s.framer.offset ≠ 7 := by
    intro h7
    rw [execPkt, packetBytes, rxAll, rx_of_offset_seven _ h7] at h
    cases h
  obtain ⟨u, hu, _, _, invalid⟩ := pktIsTestedOnItsOwnPayload e c y x z k s hw h7
  have htu : u = t := Host.Outcome.next.inj (hu.symm.trans h)
  refine ⟨h7, ?_⟩
  by_contra hv
  exact hcmd (htu ▸ invalid hv)

/-- Settles O54: a case for each kind of line at the head of the agenda. -/
theorem commandStateChangesAtTheCheckOnly : Obligations.CommandStateChangesAtTheCheckOnly := by
  intro s t h hcmd
  match hagenda : s.agenda with
  | [] =>
    rw [step_nil hagenda] at h
    exact absurd (execIter_cmd h) hcmd
  | .tick :: rest =>
    rw [step_tick hagenda] at h
    exact absurd (execIter_cmd h) hcmd
  | .noByte :: rest =>
    rw [step_noByte hagenda, rxNoneChangesNothing] at h
    cases h
    exact absurd rfl hcmd
  | .rst :: rest => exact .inr (.inr ⟨rest, rfl⟩)
  | .byte b :: rest =>
    rw [step_byte hagenda] at h
    have hcommits : CommitsAt b s.framer := by
      by_contra hno
      exact hcmd (rx_cmd_of_not_commitsAt (s := s.withAgenda rest) hno h)
    exact .inl ⟨b, rest, rfl, hcommits⟩
  | .packet e c y x z k :: rest =>
    by_cases hw : [e, c, y, x, z, k].contains syncByte = true
    case pos =>
      rw [step_packet_cut hagenda hw] at h
      exact absurd (rx_syncByte_cmd h) hcmd
    case neg =>
      have wellFormed := PacketWellFormed.of_contains_syncByte (Bool.not_eq_true _ ▸ hw)
      rw [step_packet hagenda wellFormed] at h
      obtain ⟨h7, valid⟩ := execPkt_cmd_ne wellFormed h hcmd
      exact .inr (.inl ⟨e, c, y, x, z, k, rest, rfl, h7, wellFormed, valid⟩)

end Sys2Proof.Machine
end

section
/-!
PROOFS. A packet with iterations and empty notifications among its bytes (40_framer.md R148, 20_memory.md R72): they keep
the framer and Command State, so the run receives the bytes as if nothing stood between them.
-/

namespace Sys2Proof.Machine

/-- The two groups that a byte reads and writes (60_exceptions.md R243) are equal. -/
structure SameReception (s t : State) : Prop where
  framer : s.framer = t.framer
  cmd : s.cmd = t.cmd

/-- The rule makes the next framer and the next Command State from those two groups alone. -/
theorem SameReception.transitionRule (b : Byte) {s t : State} (h : SameReception s t) :
    SameReception (transitionRule b s) (transitionRule b t) := by
  obtain ⟨hframer, hcmd⟩ := h
  unfold Machine.transitionRule
  rw [hframer, hcmd]
  dsimp only
  split_ifs <;> exact ⟨rfl, rfl⟩

/-- A run over ordinary lines ends with the lines consumed, and with the framer and the Command State that their bytes
alone lead to. -/
theorem run_ordinary {ls rest : List Line} {s u : State} (h7 : s.framer.offset ≠ 7) (hs : LevelsInRange s.out)
    (hagenda : s.agenda = ls ++ rest) (hord : ∀ l ∈ ls, Ordinary l) (hsame : SameReception s u) :
    ∃ t v, Host.Core.run Sys2Proof.core ls.length s = .next t ∧ rxAll (bytesOf ls) u = .next v ∧ t.agenda = rest ∧
      SameReception t v := by
  induction ls generalizing s u with
  | nil => exact ⟨s, u, rfl, rfl, hagenda, hsame⟩
  | cons l ls ih =>
    have hords : ∀ l ∈ ls, Ordinary l := fun l hl => hord l (List.mem_cons_of_mem _ hl)
    rw [List.length_cons]
    cases l with
    | rst => exact (hord .rst List.mem_cons_self).elim
    | packet e c y x z k => exact (hord (.packet e c y x z k) List.mem_cons_self).elim
    | tick =>
      rw [run_succ_of_next _ (step_tick_of_range hagenda hs)]
      exact ih h7 (levelsInRange_smoothedOutputs hs) rfl hords ⟨hsame.framer, hsame.cmd⟩
    | noByte =>
      rw [run_succ_of_next _ (step_noByte hagenda)]
      exact ih h7 hs rfl hords ⟨hsame.framer, hsame.cmd⟩
    | byte b =>
      have h7' : u.framer.offset ≠ 7 := hsame.framer ▸ h7
      have hrx := rx_eq_transitionRule (b := b) h7
      have hout : (transitionRule b s).out = s.out := by rw [rx_frame hrx]
      have hlegal := rx_offset_ne_seven hrx
      have hnext := hsame.transitionRule b
      rw [run_succ_of_next _ (step_byte_eq_transitionRule h7 hagenda), bytesOf, rxAll, rx_eq_transitionRule h7',
        andThen_next]
      exact ih hlegal (hout ▸ hs) rfl hords ⟨hnext.framer, hnext.cmd⟩

/-- Settles O58: the bytes of the stream are those of the packet, which is tested on its own payload. -/
theorem packetCommitsUnderAnyInterleaving : Obligations.PacketCommitsUnderAnyInterleaving := by
  intro s ls rest e c y x z k h7 hs hagenda hord hbytes hw
  obtain ⟨t, v, hrun, hreceived, hrest, hsame⟩ := run_ordinary h7 hs hagenda hord ⟨rfl, rfl⟩
  obtain ⟨v', hpkt, hframe, valid, invalid⟩ := pktIsTestedOnItsOwnPayload e c y x z k s hw h7
  rw [hbytes] at hreceived
  have hv : v' = v := Host.Outcome.next.inj (hpkt.symm.trans hreceived)
  subst hv
  refine ⟨t, hrun, hrest, ?_, ?_, ?_⟩
  · rw [hsame.framer, hframe]
  · rw [hsame.cmd]
    exact valid
  · rw [hsame.cmd]
    exact invalid

end Sys2Proof.Machine
end

section
/-!
PROOFS. The decode of the flags byte and the commit (41_command_decode.md): each direction as a function of the bits of
the byte, the rows that leave a direction in its register, and the two arms of the commit.
-/

namespace Sys2Proof.Machine

/-! ### The directions by the bits of the flags byte (R162 to R164, R166) -/

theorem decLeft_eq (e : Byte) :
    decLeft e = if e.getLsbD 6 then .neg else if e.getLsbD 4 then .pos else .zero := rfl

theorem decRight_eq (e : Byte) :
    decRight e = if e.getLsbD 6 then .pos else if e.getLsbD 5 then .neg else .zero := rfl

theorem liftField_toNat (e : Byte) : (liftField e).toNat = (e.getLsbD 3).toNat * 2 + (e.getLsbD 2).toNat := by
  simp only [liftField, BitVec.extractLsb'_toNat, Nat.shiftRight_eq_div_pow, BitVec.getLsbD, Nat.toNat_testBit]
  omega

/-- The lift stops where the two bits of its code agree (R164, codes 0 and 3). -/
theorem decLift_eq (e : Byte) : decLift e =
    if e.getLsbD 3 = e.getLsbD 2 then .zero else if e.getLsbD 2 then .pos else .neg := by
  rw [decLift, liftField_toNat]
  cases e.getLsbD 3 <;> cases e.getLsbD 2 <;> rfl

/-- Settles O13: the wheels by definition, the lift for each of its four codes. -/
theorem flagsByteDecodes : Obligations.FlagsByteDecodes := by
  intro e
  refine ⟨decLeft_eq e, decRight_eq e, ?lift⟩
  rw [decLift_eq]
  cases e.getLsbD 3 <;> cases e.getLsbD 2 <;> rfl

theorem getLsbD_eq_of_and_eq {mask e f : Byte} (h : e &&& mask = f &&& mask) {i : Nat} (hi : mask.getLsbD i = true) :
    e.getLsbD i = f.getLsbD i := by
  simpa only [BitVec.getLsbD_and, hi, Bool.and_true] using congrArg (BitVec.getLsbD · i) h

/-- Settles O14: the bytes agree in every bit that a direction reads. -/
theorem decodeReadsBits6To2 : Obligations.DecodeReadsBits6To2 := by
  intro e f h
  have agree : ∀ i, (0x7C : Byte).getLsbD i = true → e.getLsbD i = f.getLsbD i := fun _ => getLsbD_eq_of_and_eq h
  refine ⟨?left, ?right, ?lift⟩
  case left => rw [decLeft_eq, decLeft_eq, agree 6 rfl, agree 4 rfl]
  case right => rw [decRight_eq, decRight_eq, agree 6 rfl, agree 5 rfl]
  case lift => rw [decLift_eq, decLift_eq, agree 3 rfl, agree 2 rfl]

/-! ### The rows that leave a direction in its register (assumption log 15) -/

theorem setLeft_of_decLeft {e : Byte} {d : Tri} (s : State) (h : decLeft e = d) :
    setLeft e s = { s with cmd := { s.cmd with leftTargetSpeed := d } } := by
  rw [setLeft, withCmd_eq, h]

theorem setRight_of_decRight {e : Byte} {d : Tri} (s : State) (h : decRight e = d) :
    setRight e s = { s with cmd := { s.cmd with rightTargetSpeed := d } } := by
  rw [setRight, withCmd_eq, h]

theorem setLift_of_decLift {e : Byte} {d : Tri} (s : State) (h : decLift e = d) :
    setLift e s = { s with cmd := { s.cmd with liftDirection := d } } := by
  rw [setLift, withCmd_eq, h]

/-- Settles O15: the bits that choose a row choose the branch of the decode. -/
theorem decLeftRowsGiveTheirResult : Obligations.DecLeftRowsGiveTheirResult := by
  intro e s
  refine ⟨fun h6 => ?reverse, fun h6 h4 => ?move, fun h6 h4 => ?stop⟩ <;>
    refine congrArg Host.Outcome.next (setLeft_of_decLeft s ?_)
  case reverse => rw [decLeft_eq, h6]; rfl
  case move => rw [decLeft_eq, h6, h4]; rfl
  case stop => rw [decLeft_eq, h6, h4]; rfl

/-- Settles O16: as for the left wheel, with bit 5 for bit 4 and the opposite signs. -/
theorem decRightRowsGiveTheirResult : Obligations.DecRightRowsGiveTheirResult := by
  intro e s
  refine ⟨fun h6 => ?reverse, fun h6 h5 => ?move, fun h6 h5 => ?stop⟩ <;>
    refine congrArg Host.Outcome.next (setRight_of_decRight s ?_)
  case reverse => rw [decRight_eq, h6]; rfl
  case move => rw [decRight_eq, h6, h5]; rfl
  case stop => rw [decRight_eq, h6, h5]; rfl

/-- The decode reads the lift code alone, so it gives for `e` what it gives for any byte with that code. -/
theorem decLift_eq_of_liftField_eq {e f : Byte} (h : liftField e = liftField f) : decLift e = decLift f := by
  rw [decLift, decLift, h]

/-- Settles O17: each code is the one of the byte that holds it at bits 3 to 2 and nothing else. -/
theorem decLiftRowsGiveTheirResult : Obligations.DecLiftRowsGiveTheirResult := by
  intro e s
  refine ⟨fun h => ?code0, fun h => ?code1, fun h => ?code2, fun h => ?code3⟩ <;>
    refine congrArg Host.Outcome.next (setLift_of_decLift s ?_)
  case code0 => exact decLift_eq_of_liftField_eq (f := 0x00) h
  case code1 => exact decLift_eq_of_liftField_eq (f := 0x04) h
  case code2 => exact decLift_eq_of_liftField_eq (f := 0x08) h
  case code3 => exact decLift_eq_of_liftField_eq (f := 0x0C) h

/-! ### The commit (R160, R161) -/

/-- Settles O18: each row is one update of Command State. In the open row the two parts of the commit together write the
whole group; in the locked row the first part is alone and keeps the counts. The lock bit chooses the row and does not
enter its meaning. -/
theorem commitArmsWriteTheirGroup : Obligations.CommitArmsWriteTheirGroup :=
  fun _ => ⟨fun _ => rfl, fun _ => rfl⟩

end Sys2Proof.Machine
end

section
/-!
PROOFS. The smoothing controller (42_smoothing.md): the laws of one smoothing step, the operation `SMOOTH` inside and
outside the domain of its gain, and the five targets.
-/

namespace Sys2Proof.Machine

/-! ### One smoothing step (R183) -/

/-- The error after a step, signed (R183 (a)). -/
theorem sub_smoothNext (c t g : NumQ) : t - smoothNext c t g = (1 - g) * (t - c) := by
  rw [smoothNext_mean]; ring

/-- The error shrinks strictly, because the factor `1 - g` is in [0, 1) (R183 (c)). -/
theorem abs_sub_smoothNext_lt {c t g : NumQ} (hpos : 0 < g) (hle : g ≤ 1) (hne : c ≠ t) :
    |t - smoothNext c t g| < |t - c| := by
  have herror : 0 < |t - c| := abs_pos.2 (sub_ne_zero.2 hne.symm)
  calc |t - smoothNext c t g| = (1 - g) * |t - c| := by
        rw [sub_smoothNext, abs_mul, abs_of_nonneg (sub_nonneg.2 hle)]
    _ < |t - c| := mul_lt_of_lt_one_left herror (sub_lt_self 1 hpos)

/-- For a gain below 1 the error is a product of two factors that are not 0 (R183 (e)). -/
theorem smoothNext_ne_target {c t g : NumQ} (hlt : g < 1) (hne : c ≠ t) : smoothNext c t g ≠ t := by
  have herror : t - smoothNext c t g ≠ 0 := by
    rw [sub_smoothNext]
    exact mul_ne_zero (sub_pos.2 hlt).ne' (sub_ne_zero.2 hne.symm)
  exact (sub_ne_zero.1 herror).symm

/-- Settles O21: the signed error gives the contraction, and both ends are in the interval that the step does not leave. -/
theorem smoothConvergesWithoutOvershoot : Obligations.SmoothConvergesWithoutOvershoot := by
  intro c t g hpos hle
  obtain ⟨hlow, hhigh⟩ := smoothNext_mem_Icc ⟨hpos.le, hle⟩ ⟨min_le_left c t, le_max_left c t⟩
    ⟨min_le_right c t, le_max_right c t⟩
  exact ⟨sub_smoothNext c t g, hlow, hhigh, abs_sub_smoothNext_lt hpos hle, smoothNext_ne_target⟩

/-! ### The operation `SMOOTH` (R180, R181) -/

theorem gainInDomain_iff (g : NumQ) : gainInDomain g = true ↔ 0 < g ∧ g ≤ 1 := by
  simp only [gainInDomain, Bool.and_eq_true, decide_eq_true_eq]

/-- Settles O19: the gain passes the test of its domain. -/
theorem smoothReturnsTheNextValue : Obligations.SmoothReturnsTheNextValue :=
  fun _ _ g _ hpos hle => if_pos ((gainInDomain_iff g).2 ⟨hpos, hle⟩)

/-- Settles O20: the gain fails the test of its domain. -/
theorem smoothRefusesGainsOutsideItsDomain : Obligations.SmoothRefusesGainsOutsideItsDomain :=
  fun _ _ g _ hout => if_neg (mt (gainInDomain_iff g).1 hout)

/-! ### The targets (R185 to R189) -/

/-- Settles O22: `triNum` of the three derived fields is the number that the statement writes out. -/
theorem levelTargetsAreTheDerivedFields : Obligations.LevelTargetsAreTheDerivedFields :=
  fun snap _ => ⟨⟨leftTarget snap, rfl, rfl⟩, ⟨rightTarget snap, rfl, rfl⟩, ⟨liftTarget snap, rfl, rfl⟩⟩

theorem countNum_zero : countNum 0 = 0 := rfl

theorem countNum_pos {b : Byte} (h : b ≠ 0) : 0 < countNum b :=
  Nat.cast_pos.2 (Nat.pos_of_ne_zero fun hzero => h (BitVec.eq_of_toNat_eq hzero))

/-- The inverted clamp replaces every width above `ROT_MIN`, and only the count 0 gives none (R188, corner case (a)). -/
theorem rotTarget_eq_ite (p : Config) (snap : CommandState) :
    rotTarget p snap = if snap.rotX = 0 then p.rotMin else p.rotMax := by
  split_ifs with h
  case pos =>
    have hwidth : p.rotMin + countNum snap.rotX * 4 = p.rotMin := by rw [h, countNum_zero, zero_mul, add_zero]
    simp only [rotTarget, hwidth, lt_irrefl, if_false]
  case neg =>
    have habove : p.rotMin < p.rotMin + countNum snap.rotX * 4 := by linarith [countNum_pos h]
    exact if_pos habove

/-- Settles O23, by the two values of the inverted clamp. -/
theorem rotationTargetHasTwoValues : Obligations.RotationTargetHasTwoValues :=
  fun snap s => ⟨rotTarget s.cfg snap, rfl, rotTarget_eq_ite s.cfg snap⟩

/-- Settles O24: the clamp is a minimum, with the factor 3 on the other side of the count. -/
theorem chinTargetIsClampedAbove : Obligations.ChinTargetIsClampedAbove := by
  intro snap s
  refine ⟨chinTarget s.cfg snap, rfl, ?value⟩
  rw [chinTarget_eq_min, mul_comm]
  rfl

end Sys2Proof.Machine
end

section
/-!
PROOFS. The updates of the control cycle (43_control_cycle.md R213 to R217): one smoothing step of one output and one
call, and that the updates of two actuators commute (R218).
-/

namespace Sys2Proof.Machine

/-! ### One motor -/

theorem gWheel_unit : 0 ≤ gWheel ∧ gWheel ≤ 1 := by norm_num [gWheel]

theorem gLift_unit : 0 ≤ gLift ∧ gLift ≤ 1 := by norm_num [gLift]

theorem levelTarget_iff (t : NumQ) : levelTarget t = true ↔ t = -1 ∨ t = 0 ∨ t = 1 := by
  simp only [levelTarget, Bool.or_eq_true, beq_iff_eq, or_assoc]

theorem levelTarget_range {t : NumQ} (h : t = -1 ∨ t = 0 ∨ t = 1) : -1 ≤ t ∧ t ≤ 1 := by
  rcases h with rfl | rfl | rfl <;> norm_num

/-- A motor whose level and target are in range is driven to a level in range (10_state.md R41). -/
theorem updateMotor_of_range {m : Motor} {gain t : NumQ} {s : State} (hgain : 0 ≤ gain ∧ gain ≤ 1)
    (ht : -1 ≤ t ∧ t ≤ 1) (hlevel : -1 ≤ readMotor m s ∧ readMotor m s ≤ 1) :
    ∃ v : NumQ, v = readMotor m s + (t - readMotor m s) * gain ∧ -1 ≤ v ∧ v ≤ 1 ∧
      updateMotor m gain t s = .next { s with out := storeLevel m v s.out, calls := s.calls ++ [.drive m v] } := by
  have hnext := smoothNext_mem_Icc hgain hlevel ht
  exact ⟨_, rfl, hnext.1, hnext.2, driveMotor_of_range s hnext⟩

/-- Settles O25, by the update of a motor for each wheel. -/
theorem updOfAWheelDrivesOneStep : Obligations.UpdOfAWheelDrivesOneStep := by
  intro t s ht
  have hrange := levelTarget_range ht
  exact ⟨fun hlow hhigh => updateMotor_of_range (m := .left) gWheel_unit hrange ⟨hlow, hhigh⟩,
    fun hlow hhigh => updateMotor_of_range (m := .right) gWheel_unit hrange ⟨hlow, hhigh⟩⟩

/-- Settles O26, by the update of a motor. -/
theorem updLiftDrivesOneStep : Obligations.UpdLiftDrivesOneStep :=
  fun _ _ ht hlow hhigh => updateMotor_of_range (m := .lift) gLift_unit (levelTarget_range ht) ⟨hlow, hhigh⟩

/-! ### One joint -/

/-- Settles O28: the width written and the width of the call are the same smoothing step. -/
theorem updRotWritesOneStep : Obligations.UpdRotWritesOneStep :=
  fun _ _ => rfl

/-- Settles O29, as for the rotation joint. -/
theorem updChinWritesOneStep : Obligations.UpdChinWritesOneStep :=
  fun _ _ => rfl

/-! ### Two actuators (R218) -/

/-- The outputs after the update of one actuator. -/
def smoothOutput (a : Actuator) (t : NumQ) (o : Outputs) : Outputs :=
  match a with
  | .left => { o with lvlL := smoothNext o.lvlL t gWheel }
  | .right => { o with lvlR := smoothNext o.lvlR t gWheel }
  | .lift => { o with lvlLift := smoothNext o.lvlLift t gLift }
  | .rot => { o with pwRot := smoothNext o.pwRot t gRot }
  | .chin => { o with pwChin := smoothNext o.pwChin t gChin }

/-- The call that writes out the output of one actuator. -/
def outputCall (a : Actuator) (o : Outputs) : Call :=
  match a with
  | .left => .drive .left o.lvlL
  | .right => .drive .right o.lvlR
  | .lift => .drive .lift o.lvlLift
  | .rot => .setPulseWidth .rot o.pwRot
  | .chin => .setPulseWidth .chin o.pwChin

/-- The state after the update of one actuator. -/
def State.updated (s : State) (a : Actuator) (t : NumQ) : State :=
  { s with out := smoothOutput a t s.out, calls := s.calls ++ [outputCall a (smoothOutput a t s.out)] }

/-- An update reads and writes the output of its own actuator alone. -/
theorem smoothOutput_comm {a b : Actuator} (h : a ≠ b) (ta tb : NumQ) (o : Outputs) :
    smoothOutput b tb (smoothOutput a ta o) = smoothOutput a ta (smoothOutput b tb o) := by
  cases a <;> cases b
  case left.left | right.right | lift.lift | rot.rot | chin.chin => exact absurd rfl h
  all_goals rfl

/-- The wheels and the lift take level targets only (42_smoothing.md R190). -/
theorem updateOf_motor_eq_ok {t : NumQ} {i j : Instr}
    (h : (if levelTarget t then .ok j else .error .notALevelTarget : Decoded) = .ok i) :
    (-1 ≤ t ∧ t ≤ 1) ∧ i = j := by
  split at h
  case isTrue ht => cases h; exact ⟨levelTarget_range ((levelTarget_iff t).1 ht), rfl⟩
  case isFalse => cases h

/-- An admitted update ends in a state, with the levels still in range. -/
theorem exec_of_updateOf {a : Actuator} {t : NumQ} {i : Instr} {s : State} (h : updateOf a t = .ok i)
    (hs : LevelsInRange s.out) : exec i s = .next (s.updated a t) ∧ LevelsInRange (s.updated a t).out := by
  obtain ⟨hL, hR, hLift⟩ := hs
  cases a with
  | left =>
    obtain ⟨ht, rfl⟩ := updateOf_motor_eq_ok h
    obtain ⟨v, rfl, hlow, hhigh, hexec⟩ := updateMotor_of_range (m := .left) (s := s) gWheel_unit ht hL
    exact ⟨hexec, ⟨hlow, hhigh⟩, hR, hLift⟩
  | right =>
    obtain ⟨ht, rfl⟩ := updateOf_motor_eq_ok h
    obtain ⟨v, rfl, hlow, hhigh, hexec⟩ := updateMotor_of_range (m := .right) (s := s) gWheel_unit ht hR
    exact ⟨hexec, hL, ⟨hlow, hhigh⟩, hLift⟩
  | lift =>
    obtain ⟨ht, rfl⟩ := updateOf_motor_eq_ok h
    obtain ⟨v, rfl, hlow, hhigh, hexec⟩ := updateMotor_of_range (m := .lift) (s := s) gLift_unit ht hLift
    exact ⟨hexec, hL, hR, hlow, hhigh⟩
  | rot => cases h; exact ⟨rfl, hL, hR, hLift⟩
  | chin => cases h; exact ⟨rfl, hL, hR, hLift⟩

/-- One admitted update after another. -/
theorem andThen_exec_of_updateOf {a b : Actuator} {ta tb : NumQ} {i j : Instr} {s : State}
    (hi : updateOf a ta = .ok i) (hj : updateOf b tb = .ok j) (hs : LevelsInRange s.out) :
    andThen (exec i s) (exec j) = .next ((s.updated a ta).updated b tb) := by
  obtain ⟨hexec, hrange⟩ := exec_of_updateOf hi hs
  rw [hexec, andThen_next]
  exact (exec_of_updateOf hj hrange).1

/-- Settles O31: each order is two admitted updates, and their outputs commute. -/
theorem updatesOfTwoActuatorsCommute : Obligations.UpdatesOfTwoActuatorsCommute := by
  intro a b ta tb i j s hab hi hj hs
  exact ⟨_, _, andThen_exec_of_updateOf hi hj hs, andThen_exec_of_updateOf hj hi hs,
    smoothOutput_comm hab ta tb s.out, rfl, rfl⟩

end Sys2Proof.Machine
end

section
/-!
PROOFS. The iteration (43_control_cycle.md R210) and runs of it without an event (R221): each iteration multiplies the
error of an output by `1 - gain` (42_smoothing.md R183), and the target it moves toward stands.
-/

namespace Sys2Proof.Machine

/-- The width of R189, with the factor and the count in the order of the statements. -/
theorem chinTarget_eq_min_toNat (p : Config) (snap : CommandState) :
    chinTarget p snap = min (p.chinMin + 3 * (snap.chin.toNat : NumQ)) p.chinMax := by
  rw [chinTarget_eq_min, mul_comm, countNum]

/-- Settles O30: the outputs are the smoothed ones, with the two joint targets in closed form. -/
theorem iterMovesEveryOutputOnce : Obligations.IterMovesEveryOutputOnce := by
  intro s hs
  refine ⟨smoothedOutputs s, rfl, rfl, rfl, ?rot, ?chin, execIter_of_range hs⟩
  case rot => rw [← rotTarget_eq_ite]; rfl
  case chin => rw [← chinTarget_eq_min_toNat]; rfl

/-- With no event waiting and the levels in range, a step is an iteration that ends in a state. -/
theorem step_nil_of_range {s : State} (h : s.agenda = []) (hs : LevelsInRange s.out) :
    step s = .next { s with out := smoothedOutputs s, calls := s.calls ++ outputCalls (smoothedOutputs s) } := by
  rw [step_nil h]
  exact execIter_of_range hs

/-- What `n` iterations make of `s`: Command State and the framer stand, and each error is `(1 - gain)^n` of what it
was (42_smoothing.md R183 (b)). -/
structure Smoothed (n : Nat) (s t : State) : Prop where
  framer : t.framer = s.framer
  cmd : t.cmd = s.cmd
  agenda : t.agenda = s.agenda
  lvlL : leftTarget s.cmd - t.out.lvlL = (1 - gWheel) ^ n * (leftTarget s.cmd - s.out.lvlL)
  lvlR : rightTarget s.cmd - t.out.lvlR = (1 - gWheel) ^ n * (rightTarget s.cmd - s.out.lvlR)
  lvlLift : liftTarget s.cmd - t.out.lvlLift = (1 - gLift) ^ n * (liftTarget s.cmd - s.out.lvlLift)
  pwRot : rotTarget s.cfg s.cmd - t.out.pwRot = (1 - gRot) ^ n * (rotTarget s.cfg s.cmd - s.out.pwRot)
  pwChin : chinTarget s.cfg s.cmd - t.out.pwChin = (1 - gChin) ^ n * (chinTarget s.cfg s.cmd - s.out.pwChin)

theorem Smoothed.zero (s : State) : Smoothed 0 s s := by
  constructor <;> simp

/-- A step before `n` others puts one more factor `1 - gain` on the error. -/
theorem error_succ {n : Nat} {c t g x : NumQ} (h : t - x = (1 - g) ^ n * (t - smoothNext c t g)) :
    t - x = (1 - g) ^ (n + 1) * (t - c) := by
  rw [h, sub_smoothNext, pow_succ, mul_assoc]

/-- The targets after an iteration are those before it, because it writes neither Command State nor the parameters. -/
theorem Smoothed.succ {n : Nat} {s t : State} {cs : List Call}
    (h : Smoothed n { s with out := smoothedOutputs s, calls := cs } t) : Smoothed (n + 1) s t where
  framer := h.framer
  cmd := h.cmd
  agenda := h.agenda
  lvlL := error_succ h.lvlL
  lvlR := error_succ h.lvlR
  lvlLift := error_succ h.lvlLift
  pwRot := error_succ h.pwRot
  pwChin := error_succ h.pwChin

/-- A run without an event is iterations alone. -/
theorem run_silent (n : Nat) {s : State} (h : s.agenda = []) (hs : LevelsInRange s.out) :
    ∃ t, Host.Core.run Sys2Proof.core n s = .next t ∧ Smoothed n s t := by
  induction n generalizing s with
  | zero => exact ⟨s, run_zero s, .zero s⟩
  | succ n ih =>
    rw [run_succ_of_next n (step_nil_of_range h hs)]
    obtain ⟨t, hrun, ht⟩ := ih (s := { s with out := smoothedOutputs s, calls := _ }) h
      (levelsInRange_smoothedOutputs hs)
    exact ⟨t, hrun, ht.succ⟩

/-- Settles O60, with the gains and the two joint targets written out. -/
theorem silenceHoldsTheCommand : Obligations.SilenceHoldsTheCommand := by
  intro n s h hs
  obtain ⟨t, hrun, ht⟩ := run_silent n h hs
  have hwheel : 1 - gWheel = 7 / 10 := by norm_num [gWheel]
  have hlift : 1 - gLift = 1 / 2 := by norm_num [gLift]
  have hrot : 1 - gRot = 4 / 5 := by norm_num [gRot]
  have hchin : 1 - gChin = 4 / 5 := by norm_num [gChin]
  rw [← rotTarget_eq_ite, ← chinTarget_eq_min_toNat, ← hwheel, ← hlift]
  refine ⟨t, hrun, ht.cmd, ht.framer, ht.agenda.trans h, ht.lvlL, ht.lvlR, ht.lvlLift, ?rot, ?chin⟩
  case rot => rw [← hrot]; exact ht.pwRot
  case chin => rw [← hchin]; exact ht.pwChin

end Sys2Proof.Machine
end

section
/-!
PROOFS. No run from reset stops (60_exceptions.md R230, 20_memory.md R72, R76): the states that a step stops in are ruled
out by the invariant, which reset establishes and every step keeps.
-/

namespace Sys2Proof.Machine

/-- A step from a state with the invariant ends in a state with the invariant. -/
theorem State.Inv.step {s : State} (hs : s.Inv) : ∃ t, step s = .next t ∧ t.Inv := by
  have stops := step_stops s
  match hstep : Machine.step s with
  | .next t => exact ⟨t, rfl, stepKeepsTheInvariant s t hs hstep⟩
  | .fault r =>
    rw [hstep] at stops
    rcases stops with ⟨_, hseven⟩ | ⟨_, hlevel⟩
    · exact absurd hs.offsetLegal (by rw [OffsetLegal, hseven]; decide)
    · exact absurd hs.levelsInRange hlevel
  | .refused r =>
    rw [hstep] at stops
    exact stops.elim

theorem State.Inv.completes (n : Nat) {s : State} (hs : s.Inv) : Completes n s := by
  induction n generalizing s with
  | zero => exact ⟨s, run_zero s⟩
  | succ n ih =>
    obtain ⟨t, hstep, ht⟩ := hs.step
    rw [Completes, run_succ_of_next n hstep]
    exact ih ht

/-- Settles O50: the registers have the invariant at reset, whatever the parameters and the events to come are. -/
theorem noRunFromResetStops : Obligations.NoRunFromResetStops := by
  intro p ls n
  have hinv : State.Inv { State.afterReset p with agenda := ls } := State.inv_of_reset_registers rfl rfl rfl
  exact hinv.completes n

end Sys2Proof.Machine
end

section
/-!
PROOFS. The rights of the two contexts (60_exceptions.md R243, 20_memory.md R69): an event of the handler is bytes
arriving, and an iteration is five calls with their outputs.
-/

namespace Sys2Proof.Machine

/-- The lines that are events of the handler: a byte, a notification without a byte, a packet. -/
def IsReception (l : Line) : Prop :=
  (∃ b, l = .byte b) ∨ l = .noByte ∨ ∃ e c y x z k, l = .packet e c y x z k

/-- An event of the handler is a sequence of bytes: none, one, or the seven of a packet without 0xFF inside. -/
theorem step_of_isReception {s : State} {l : Line} {rest : List Line} (hl : IsReception l)
    (h : s.agenda = l :: rest) : ∃ bs ls, step s = rxAll bs (s.withAgenda ls) := by
  rcases hl with ⟨b, rfl⟩ | rfl | ⟨e, c, y, x, z, k, rfl⟩
  case inl => exact ⟨[b], rest, by rw [step_byte h, rxAll_singleton]⟩
  case inr.inl => exact ⟨[], rest, step_noByte h⟩
  case inr.inr =>
    by_cases hw : [e, c, y, x, z, k].contains syncByte = true
    case pos => exact ⟨[syncByte], _, by rw [step_packet_cut h hw, rxAll_singleton]⟩
    case neg =>
      have wellFormed := PacketWellFormed.of_contains_syncByte (Bool.not_eq_true _ ▸ hw)
      exact ⟨packetBytes e c y x z k, rest, step_packet h wellFormed⟩

/-- An iteration that ends makes one call for each output, with the value it moved to; the levels before it may lie outside
their range. -/
theorem execIter_calls {s t : State} (h : execIter s = .next t) :
    t.calls = s.calls ++ outputCalls (smoothedOutputs s) := by
  obtain ⟨s1, hL, h⟩ := andThen_eq_next h
  obtain ⟨s2, hR, h⟩ := andThen_eq_next h
  obtain ⟨s3, hLift, h⟩ := andThen_eq_next h
  obtain ⟨_, rfl⟩ := driveMotor_eq_next hL
  obtain ⟨_, rfl⟩ := driveMotor_eq_next hR
  obtain ⟨_, rfl⟩ := driveMotor_eq_next hLift
  cases h
  simp [outputCalls, smoothedOutputs, storeLevel, storeWidth, readMotor, snapshot]

/-- Settles O55: the frame of a sequence of bytes, and the frame and the calls of an iteration. -/
theorem contextsKeepToTheirGroups : Obligations.ContextsKeepToTheirGroups := by
  intro s t l rest hagenda h
  refine ⟨fun hl => ?handler, fun hl => ?foreground⟩
  case handler =>
    obtain ⟨bs, ls, hstep⟩ := step_of_isReception hl hagenda
    rw [hstep] at h
    rw [rxAll_frame h]
    exact ⟨rfl, rfl, rfl, rfl⟩
  case foreground =>
    rw [hl] at hagenda
    rw [step_tick hagenda] at h
    have hcalls := execIter_calls h
    obtain ⟨_, ht⟩ := execIter_eq_next h
    rw [ht]
    refine ⟨rfl, rfl, rfl, rfl, ?_⟩
    rw [hcalls]
    simp [outputCalls]

end Sys2Proof.Machine
end

section
/-!
PROOFS. Reset (70_reset_and_hazards.md R260, R262) and the first iteration after it (R264).
-/

namespace Sys2Proof.Machine

/-- Settles O32, by the equation of `RST`. -/
theorem rstSetsTheResetValues : Obligations.RstSetsTheResetValues :=
  fun s => ⟨_, execRst_eq s, rfl, rfl, rfl, rfl, rfl, rfl, rfl, rfl⟩

/-- A smoothing step moves a value by `gain` times its error, so it moves nothing exactly if there is no error. -/
theorem smoothNext_eq_current_iff {c t g : NumQ} (hg : g ≠ 0) : smoothNext c t g = c ↔ t = c := by
  rw [smoothNext, add_eq_left, mul_eq_zero, or_iff_left hg, sub_eq_zero]

theorem smoothNext_self (c g : NumQ) : smoothNext c c g = c := by
  rw [smoothNext, sub_self, zero_mul, add_zero]

/-- Settles O34: the levels start at their targets 0, and a joint stands still exactly if it starts at its target. -/
theorem jointsHoldAtResetOnlyIfNeutralIsTarget : Obligations.JointsHoldAtResetOnlyIfNeutralIsTarget := by
  intro p
  have hinv : (State.afterReset p).Inv := State.inv_of_reset_registers rfl rfl rfl
  refine ⟨_, execIter_of_range hinv.levelsInRange, smoothNext_self 0 gWheel, smoothNext_self 0 gWheel,
    smoothNext_self 0 gLift, ?rot, ?chin⟩
  case rot =>
    have hgain : gRot ≠ 0 := by norm_num [gRot]
    have htarget := rotTarget_eq_ite p (resetCommand p)
    exact htarget ▸ smoothNext_eq_current_iff hgain
  case chin =>
    have hgain : gChin ≠ 0 := by norm_num [gChin]
    have htarget := chinTarget_eq_min_toNat p (resetCommand p)
    exact htarget ▸ smoothNext_eq_current_iff hgain

end Sys2Proof.Machine
end
